-- ==== Sys2Proof/Word.lean ====
section
/-! DEFINITION. The three bit patterns that meet in the block (30_encoding.md): command words, instructions, bytes. -/

namespace Sys2Proof

/-- One byte handed to the transport (R44, R45). -/
abbrev Byte := BitVec 8

/-- A command word of format `cmd14` (R61): `op` in bits 13:10, `arg` in bits 9:0. -/
abbrev Cmd14 := BitVec 14

/-- An instruction of format `st7920_10` (R65): RS in bit 9, RW in bit 8, the payload in bits 7:0.
DEDUCED (the reading D4 of the spec): log entry 12. -/
abbrev Ins10 := BitVec 10

/-- One word presented to the block, in one of the two formats that spec/opcode_table.json tells apart.
The hardware's command channel carries `cmd14` words alone (R61); an `st7920_10` word stands for the codec's own
operand (`send(instruction: 10-bit value)`, R90).
DESIGN CHOICE: log entry 7. -/
inductive Word where
  | cmd14 (c : Cmd14)
  | st7920 (I : Ins10)
  deriving DecidableEq, Repr

end Sys2Proof
end

