-- ==== Sys2Proof/Syntax.lean ====
section
/-! DEFINITION. The block's instructions: one constructor per row of spec/opcode_table.json, with its operands. -/

namespace Sys2Proof

/-- The controller's two mutually exclusive instruction sets (R12, R21). -/
inductive InstrSet where
  | basic
  | extended
  deriving DecidableEq, Repr, Inhabited

/-- Basic = 0, Extended = 1 (R12). -/
def InstrSet.toBit : InstrSet → Bool
  | .basic => false
  | .extended => true

/-- The set a bit names (R12). -/
def InstrSet.ofBit : Bool → InstrSet
  | false => .basic
  | true => .extended

/-- The three display attributes, in the spec's order (display, underline, blink) (R22, R28). -/
structure Attrs where
  d : Bool
  u : Bool
  b : Bool
  deriving DecidableEq, Repr, Inhabited

/-- The selector code of SETATTR that names no attribute (R64, R123). -/
abbrev badSelectorCode : BitVec 2 := 3

/-- The instructions. The first eight are the host's commands (R62, R63), the last seven the instructions the block
emits (R68 to R72), which the codec can send by themselves. -/
inductive Instr where
  /-- `SEND I` (R90). -/
  | send (I : Ins10)
  /-- `SELECT t` (R100). -/
  | select (t : InstrSet)
  /-- `SETATTR w, v` (R120): `w` is 0 Display, 1 CursorUnderline, 2 CursorBlink; 3 is illegal (R123). -/
  | setattr (w : BitVec 2) (v : Bool)
  /-- `SETPOS p` (R117): a logical cell position. -/
  | setpos (p : BitVec 5)
  /-- `SETADDR a` (R116): a DDRAM address. -/
  | setaddr (a : BitVec 6)
  /-- `WRDATA b` (R132). -/
  | wrdata (b : Byte)
  /-- `CLEAR` (R131). -/
  | clear
  /-- `INIT` (R130). -/
  | init
  /-- `FUNCSET.B` (R68): function set selecting Basic. -/
  | funcsetB
  /-- `FUNCSET.E` (R68): function set selecting Extended. -/
  | funcsetE
  /-- `DISPCTRL d,u,b` (R69). -/
  | dispctrl (d u b : Bool)
  /-- `CLRDISP` (R70). -/
  | clrdisp
  /-- `ENTRY.R` (R70). -/
  | entryR
  /-- `SETDDRAM a` (R71). -/
  | setddram (a : BitVec 6)
  /-- `WRITE b` (R72). -/
  | write (b : Byte)
  deriving DecidableEq, Repr

/-- A command of the host's channel (layer 1), as against an emitted instruction (layer 2). -/
def Instr.isCommand : Instr → Bool
  | .send _ | .select _ | .setattr _ _ | .setpos _ | .setaddr _ | .wrdata _ | .clear | .init => true
  | .funcsetB | .funcsetE | .dispctrl _ _ _ | .clrdisp | .entryR | .setddram _ | .write _ => false

end Sys2Proof
end

