-- ==== Sys2Proof/Config.lean ====
section
/-! DEFINITION. What is fixed for one block and what the spec leaves open: the opcode record OPC, the durations, the free values. -/

namespace Sys2Proof

/-- The opcode configuration `OPC` (R66): the values of the controller's instructions, an argument of the model. -/
structure Opc where
  fsBasic : Ins10
  fsExt : Ins10
  dispBase : Ins10
  clear : Ins10
  entryRight : Ins10
  setaddrBase : Ins10
  wrdataBase : Ins10
  deriving DecidableEq, Repr, Inhabited

/-- The instance `OPC_DS` of R66, from general knowledge and not from the source (GK1): the values of
spec/opcode_table.json. -/
def Opc.ds : Opc where
  fsBasic := 0x030
  fsExt := 0x034
  dispBase := 0x008
  clear := 0x001
  entryRight := 0x006
  setaddrBase := 0x080
  wrdataBase := 0x200

/-- The two values that `OPC_DOC` gives (R66), put over an instance that gives the other five. -/
def Opc.withDoc (o : Opc) : Opc :=
  { o with setaddrBase := 0x020, wrdataBase := 0x200 }

/-- Where the half-width emitter's counter starts (R156): left open by the spec, an argument of the host routine. -/
inductive HwCounterOrigin where
  | absolute
  | runRelative
  deriving DecidableEq, Repr

/-- The instance of OPC this block was built with (R66, D5): no value is chosen.
DESIGN CHOICE: log entry 1. -/
opaque Config.opc : Opc

/-- Free values of `iset` and of the ghost `cset` (R30, R33, U3, U4, U5).
DESIGN CHOICE: log entries 2, 3, 4. -/
opaque Config.freeISet : Nat → InstrSet

/-- Free values of the ghost `cattr` (R33, U4, U15).
DESIGN CHOICE: log entries 3, 4. -/
opaque Config.freeAttrs : Nat → Attrs

/-- Free values of the ghost `cac` (R33, N11, U14).
DESIGN CHOICE: log entries 3, 5. -/
opaque Config.freeAddr : Nat → BitVec 6

/-- The standard settle `T_STD` in microseconds (R202): a parameter that no rule depends on.
DESIGN CHOICE: log entry 15. -/
opaque Config.tStd : Nat

/-- The long settle `T_LONG` in microseconds (R203): a parameter that no rule depends on.
DESIGN CHOICE: log entry 15. -/
opaque Config.tLong : Nat

end Sys2Proof
end

