-- ==== Sys2Proof/Machine/State.lean ====
section
/-! DEFINITION. The state of the block (10_state.md), the event list (R9), the faults, and the state after reset (R30 to R33, R190). -/

namespace Sys2Proof.Machine

/-- The kind of a delay request (R11). -/
inductive DlyKind where
  | std
  | long
  deriving DecidableEq, Repr

/-- One event of the event list (R9): a byte handed to the transport, or a delay request. -/
inductive Event where
  | tx (b : Byte)
  | dly (k : DlyKind)
  deriving DecidableEq, Repr

/-- The ghost state of the controller (R28): what the block mirrors and can never read. It is no hardware of the block.
DESIGN CHOICE: log entries 3, 4, 5. -/
structure Controller where
  /-- The instruction set the controller last had selected. -/
  cset : InstrSet
  /-- The controller's display on/off, cursor and blink settings. -/
  cattr : Attrs
  /-- The controller's DDRAM address counter. -/
  cac : BitVec 6
  deriving DecidableEq, Repr

/-- The state: the five elements of R20, the event list of R9, the ghost state of R28, and the model's own fields
`initDone`, `cmds`, `opc` and `freeCount`. -/
structure State where
  /-- The instruction set the block believes the controller last had selected (R21). -/
  iset : InstrSet
  /-- `attr_d`, display-visible (R22). -/
  attrD : Bool
  /-- `attr_u`, underline-cursor-visible (R22). -/
  attrU : Bool
  /-- `attr_b`, blink-cursor-visible (R22). -/
  attrB : Bool
  /-- The sticky error flag (R23). -/
  err : Bool
  /-- An `INIT` has completed since reset, so `iset` may be read (R30, R175). Log entry 2. -/
  initDone : Bool
  /-- The event list, oldest event first (R9). -/
  events : List Event
  /-- The host's commands that the block has not accepted yet, the next one first (R8, R34). Log entry 6. -/
  cmds : List Word
  /-- The opcode record this block was built with (R66, R34): no instruction writes it. Log entry 1. -/
  opc : Opc
  /-- The ghost state of the controller (R28). Log entry 3. -/
  ctl : Controller
  /-- The number of the next free value. Log entry 20. -/
  freeCount : Nat
  deriving DecidableEq, Repr

/-- Why a step has no successor state. -/
inductive Fault where
  /-- Raised by `SELECT`, and through it by `SETATTR`, `SETADDR`, `SETPOS` and `CLEAR`, when `iset` is read and no
  `INIT` has completed since reset: the spec's own model fault (R30, R175). Safe: the hardware would do one of two
  defined things, and the model makes no claim. -/
  | uninitialisedISet
  deriving DecidableEq, Repr

/-- Why an instruction has no meaning. -/
inductive Refusal where
  /-- Raised by an arm of exec whose instruction has no meaning yet; no arm does. Safe: no claim is made. -/
  | notModelled (mnemonic : String)
  deriving DecidableEq, Repr

/-- What one instruction or one step answers. -/
abbrev Answer := Host.Outcome State Fault Refusal

/-- The three attributes together, `(attr_d, attr_u, attr_b)` (R31). -/
def State.attrs (s : State) : Attrs := ⟨s.attrD, s.attrU, s.attrB⟩

/-- Write `iset`. -/
def State.setIset (s : State) (t : InstrSet) : State := { s with iset := t }

/-- Write `attr_d`. -/
def State.setAttrD (s : State) (v : Bool) : State := { s with attrD := v }

/-- Write `attr_u`. -/
def State.setAttrU (s : State) (v : Bool) : State := { s with attrU := v }

/-- Write `attr_b`. -/
def State.setAttrB (s : State) (v : Bool) : State := { s with attrB := v }

/-- Write `err`. -/
def State.setErr (s : State) (v : Bool) : State := { s with err := v }

/-- Record whether an `INIT` has completed since reset. -/
def State.setInitDone (s : State) (v : Bool) : State := { s with initDone := v }

/-- `emit`: append one event to the event list (R11). -/
def State.emit (s : State) (e : Event) : State := { s with events := s.events ++ [e] }

/-- Replace the host's list of commands still to be accepted. -/
def State.setCmds (s : State) (ws : List Word) : State := { s with cmds := ws }

/-- Replace the opcode record (only to place a table word, never by an instruction). -/
def State.setOpc (s : State) (o : Opc) : State := { s with opc := o }

/-- Write the ghost state of the controller. -/
def State.setCtl (s : State) (c : Controller) : State := { s with ctl := c }

/-- Set the number of the next free value. -/
def State.setFreeCount (s : State) (n : Nat) : State := { s with freeCount := n }

/-- The state right after reset (R33) of a block built with `o`, whose `iset` comes up as `t`, over a controller `c`,
`n` free values having been used. -/
def State.afterReset (o : Opc) (t : InstrSet) (c : Controller) (n : Nat) : State where
  iset := t
  attrD := true
  attrU := true
  attrB := true
  err := false
  initDone := false
  events := []
  cmds := []
  opc := o
  ctl := c
  freeCount := n

/-- The machine right after reset: R33's table, every element the spec leaves unspecified or unknown being a free
value. DESIGN CHOICE: log entries 1, 2, 3, 20. -/
def State.reset : State :=
  State.afterReset Config.opc (Config.freeISet 0) ⟨Config.freeISet 1, Config.freeAttrs 0, Config.freeAddr 0⟩ 2

end Sys2Proof.Machine
end

