-- ==== Sys2Proof/Machine/Flags.lean ====
section
/-! DEFINITION. The one flag, `err` (R23), and the block's outputs that show state (R60). No operation produces a carry, zero or overflow (R26). -/

namespace Sys2Proof.Machine

/-- `err <- 1`: the flag is sticky, no operation clears it (R23, R174). -/
def raiseErr (s : State) : State := s.setErr true

/-- The status output `st_iset` (R60): Basic = 0, Extended = 1. -/
def stIset (s : State) : BitVec 1 := BitVec.ofBool s.iset.toBit

/-- The status output `st_attr = {attr_d, attr_u, attr_b}` (R60). -/
def stAttr (s : State) : BitVec 3 := BitVec.ofBool s.attrD ++ BitVec.ofBool s.attrU ++ BitVec.ofBool s.attrB

/-- The status output `st_err` (R60). -/
def stErr (s : State) : BitVec 1 := BitVec.ofBool s.err

/-- The output `dly_kind` of a delay request (R60): 0 = STD, 1 = LONG. -/
def dlyKindBit : DlyKind → BitVec 1
  | .std => 0
  | .long => 1

end Sys2Proof.Machine
end

