-- ==== Sys2Proof/WellFormed.lean ====
section
/-! DEFINITION. Well-formed instructions (R64) and the named well-formedness properties of an OPC instance (R67). -/

namespace Sys2Proof

/-- An instruction is well formed when its operands are ones the spec admits: the only operand field with a spare
code is SETATTR's selector (R64, R123). -/
def Instr.wf : Instr → Bool
  | .setattr w _ => w != badSelectorCode
  | .send _ | .select _ | .setpos _ | .setaddr _ | .wrdata _ | .clear | .init => true
  | .funcsetB | .funcsetE | .dispctrl _ _ _ | .clrdisp | .entryR | .setddram _ | .write _ => true

/-- The seven emitted instructions as names, for the value sets of `W_distinct` (R67). -/
inductive OpName where
  | funcsetB | funcsetE | dispctrl | clrdisp | entryR | setddram | write
  deriving DecidableEq, Repr

/-- `I` is in the value set of the emitted instruction `n` (the sets listed at `W_distinct`, R67): for an instruction
with an operand, the set of the base OR-ed with every operand value. -/
def Opc.has (o : Opc) (n : OpName) (I : Ins10) : Bool :=
  match n with
  | .funcsetB => I == o.fsBasic
  | .funcsetE => I == o.fsExt
  | .dispctrl => o.dispBase ||| (I &&& 0x007) == I
  | .clrdisp => I == o.clear
  | .entryR => I == o.entryRight
  | .setddram => o.setaddrBase ||| (I &&& 0x03F) == I
  | .write => o.wrdataBase ||| (I &&& 0x0FF) == I

/-- `W_write` (R67): bit 8 (RW) of every constant is 0. -/
def Opc.wWrite (o : Opc) : Bool :=
  !o.fsBasic.getLsbD 8 && !o.fsExt.getLsbD 8 && !o.dispBase.getLsbD 8 && !o.clear.getLsbD 8 &&
    !o.entryRight.getLsbD 8 && !o.setaddrBase.getLsbD 8 && !o.wrdataBase.getLsbD 8

/-- `W_fs` (R67): the two function sets differ in one payload bit `k`, clear in Basic and set in Extended. -/
def Opc.wFs (o : Opc) : Bool :=
  [0, 1, 2, 3, 4, 5, 6, 7].any fun k => o.fsExt == (o.fsBasic ||| ((1 : Ins10) <<< k)) && !o.fsBasic.getLsbD k

/-- `W_disp` (R67): `DISP_BASE` has exactly one bit set, at a position in 3..7. -/
def Opc.wDisp (o : Opc) : Bool :=
  [3, 4, 5, 6, 7].any fun k => o.dispBase == ((1 : Ins10) <<< k)

/-- `W_addr6` (R67): OR-ing a 6-bit address into `SETADDR_BASE` loses nothing. -/
def Opc.wAddr6 (o : Opc) : Bool :=
  o.setaddrBase &&& 0x03F == 0

/-- `W_data` (R67): `WRDATA_BASE = 0x200`. -/
def Opc.wData (o : Opc) : Bool :=
  o.wrdataBase == 0x200

/-- `W_distinct` (R67): the seven value sets are pairwise disjoint. -/
def Opc.WDistinct (o : Opc) : Prop :=
  ∀ (m n : OpName) (I : Ins10), o.has m I = true → o.has n I = true → m = n

end Sys2Proof
end

