-- ==== Sys2Proof/Decode.lean ====
section
/-! DEFINITION. Decoding of command words (R61 to R64, R171, R173) and of instructions (R65 to R72), and the encoders. -/

namespace Sys2Proof

/-- Why a command word is illegal (R171): the sub-causes, in the order of priority of R173. The hardware records none
of them. -/
inductive IllegalCause where
  /-- `cmd[13:10] ≥ 8`. -/
  | reservedOp
  /-- A legal `op` with a reserved `arg` bit set. -/
  | reservedBits
  /-- SETATTR with `arg[2:1] = 3`. -/
  | badSelector
  deriving DecidableEq, Repr

/-- A row of the table of R63: a word `c` selects the row when `c & mask = pattern`. -/
structure CmdRow where
  mnemonic : String
  pattern : Cmd14
  mask : Cmd14
  deriving DecidableEq, Repr

/-- The eight rows of R63. -/
def cmdRows : List CmdRow :=
  [ ⟨"SEND_I", 0x0000, 0x3C00⟩, ⟨"SELECT_t", 0x0400, 0x3FFE⟩, ⟨"SETATTR_w__v", 0x0800, 0x3FF8⟩,
    ⟨"SETPOS_p", 0x0C00, 0x3FE0⟩, ⟨"SETADDR_a", 0x1000, 0x3FC0⟩, ⟨"WRDATA_b", 0x1400, 0x3F00⟩,
    ⟨"CLEAR", 0x1800, 0x3FFF⟩, ⟨"INIT", 0x1C00, 0x3FFF⟩ ]

/-- The word selects the row. -/
def CmdRow.selects (r : CmdRow) (c : Cmd14) : Bool :=
  c &&& r.mask == r.pattern

/-- A legal command word, in the words of R64: it selects a row of R63 and is not SETATTR with selector 3. -/
def legalWord (c : Cmd14) : Bool :=
  cmdRows.any (fun r => r.selects c) && !(c &&& 0x3FFE == 0x0806)

/-- The operation code, bits 13:10 (R61). -/
def cmdOp (c : Cmd14) : BitVec 4 := c.extractLsb' 10 4

/-- The operand bits, bits 9:0 (R61). -/
def cmdArg (c : Cmd14) : BitVec 10 := c.extractLsb' 0 10

/-- The decoder of command words (R62, R63), total on all 16384 of them; an illegal word is rejected with the first
sub-cause that applies in the order of R173. -/
def decode14 (c : Cmd14) : Except IllegalCause Instr :=
  let arg := cmdArg c
  match (cmdOp c).toNat with
  | 0 => .ok (.send arg)
  | 1 => if arg.extractLsb' 1 9 = 0 then .ok (.select (.ofBit (arg.getLsbD 0))) else .error .reservedBits
  | 2 =>
    if arg.extractLsb' 3 7 = 0 then
      if arg.extractLsb' 1 2 = badSelectorCode then .error .badSelector
      else .ok (.setattr (arg.extractLsb' 1 2) (arg.getLsbD 0))
    else .error .reservedBits
  | 3 => if arg.extractLsb' 5 5 = 0 then .ok (.setpos (arg.extractLsb' 0 5)) else .error .reservedBits
  | 4 => if arg.extractLsb' 6 4 = 0 then .ok (.setaddr (arg.extractLsb' 0 6)) else .error .reservedBits
  | 5 => if arg.extractLsb' 8 2 = 0 then .ok (.wrdata (arg.extractLsb' 0 8)) else .error .reservedBits
  | 6 => if arg = 0 then .ok .clear else .error .reservedBits
  | 7 => if arg = 0 then .ok .init else .error .reservedBits
  | _ => .error .reservedOp

/-- `FUNCSET(t)` (R68). -/
def funcsetWord (o : Opc) : InstrSet → Ins10
  | .basic => o.fsBasic
  | .extended => o.fsExt

/-- A one-bit value as a 10-bit one, for the shifts of R69. -/
def bit10 (x : Bool) : Ins10 := (BitVec.ofBool x).setWidth 10

/-- `DISP(d, u, b) = DISP_BASE | (d << 2) | (u << 1) | b` (R69).
DEDUCED (the reading D14 of the spec): log entry 13. -/
def dispWord (o : Opc) (d u b : Bool) : Ins10 :=
  o.dispBase ||| (bit10 d <<< 2) ||| (bit10 u <<< 1) ||| bit10 b

/-- `SETDDRAM(a) = SETADDR_BASE | zext_10(a)` (R71). -/
def setddramWord (o : Opc) (a : BitVec 6) : Ins10 := o.setaddrBase ||| a.setWidth 10

/-- `WRITE(b) = WRDATA_BASE | zext_10(b)` (R72). -/
def writeWord (o : Opc) (b : Byte) : Ins10 := o.wrdataBase ||| b.setWidth 10

/-- The operand bits of `I` that the base pattern does not already set: what OR-ing the operand into the base can be
read back as. DESIGN CHOICE where the base overlaps the operand field: log entry 9. -/
def operandBits (base I : Ins10) : Ins10 := I &&& ~~~base

/-- The name of a 10-bit instruction under an instance of OPC: the first emitted instruction whose value set holds it,
in the table's order; a value with no name is the plain `SEND` of it, since all 1024 values are legal operands of SEND
(R90, R93). DESIGN CHOICE where the value sets overlap: log entry 9. -/
def decode10 (o : Opc) (I : Ins10) : Instr :=
  if o.has .funcsetB I then .funcsetB
  else if o.has .funcsetE I then .funcsetE
  else if o.has .dispctrl I then
    let x := operandBits o.dispBase I
    .dispctrl (x.getLsbD 2) (x.getLsbD 1) (x.getLsbD 0)
  else if o.has .clrdisp I then .clrdisp
  else if o.has .entryR I then .entryR
  else if o.has .setddram I then .setddram ((operandBits o.setaddrBase I).extractLsb' 0 6)
  else if o.has .write I then .write ((operandBits o.wrdataBase I).extractLsb' 0 8)
  else .send I

/-- Some emitted instruction has this value. -/
def named (o : Opc) (I : Ins10) : Bool := !(decode10 o I).isCommand

/-- The decoder of a presented word, in the format it carries. -/
def decodeWord (o : Opc) : Word → Except IllegalCause Instr
  | .cmd14 c => decode14 c
  | .st7920 I => .ok (decode10 o I)

/-- The encoder: a command as its `cmd14` word, the operation code over the right-aligned operand (R63); an emitted
instruction as its `st7920_10` word under an instance of OPC (R68 to R72). -/
def encode (o : Opc) : Instr → Word
  | .send I => .cmd14 ((0 : BitVec 4) ++ I)
  | .select t => .cmd14 ((1 : BitVec 4) ++ (0 : BitVec 9) ++ BitVec.ofBool t.toBit)
  | .setattr w v => .cmd14 ((2 : BitVec 4) ++ (0 : BitVec 7) ++ w ++ BitVec.ofBool v)
  | .setpos p => .cmd14 ((3 : BitVec 4) ++ (0 : BitVec 5) ++ p)
  | .setaddr a => .cmd14 ((4 : BitVec 4) ++ (0 : BitVec 4) ++ a)
  | .wrdata b => .cmd14 ((5 : BitVec 4) ++ (0 : BitVec 2) ++ b)
  | .clear => .cmd14 ((6 : BitVec 4) ++ (0 : BitVec 10))
  | .init => .cmd14 ((7 : BitVec 4) ++ (0 : BitVec 10))
  | .funcsetB => .st7920 (funcsetWord o .basic)
  | .funcsetE => .st7920 (funcsetWord o .extended)
  | .dispctrl d u b => .st7920 (dispWord o d u b)
  | .clrdisp => .st7920 o.clear
  | .entryR => .st7920 o.entryRight
  | .setddram a => .st7920 (setddramWord o a)
  | .write b => .st7920 (writeWord o b)

/-- The presented word that a table row's bits stand for (spec/opcode_table.json numbers both formats from bit 0 of
one word). A width of at most 10 bits is an instruction, one of 11 to 14 bits a command word. A width that fits both
(the row's width in whole bytes is 16 for either format) is read as the emitted instruction when the value has a name
under `OPC_DS`, the instance the table is written with, and as a command word otherwise.
DESIGN CHOICE: log entry 8. -/
def tableWord (nbits w : Nat) : Option Word :=
  if nbits ≤ 10 then
    if w < 2 ^ 10 then some (.st7920 (BitVec.ofNat 10 w)) else none
  else if nbits ≤ 14 then
    if w < 2 ^ 14 then some (.cmd14 (BitVec.ofNat 14 w)) else none
  else if w < 2 ^ 10 ∧ named Opc.ds (BitVec.ofNat 10 w) = true then some (.st7920 (BitVec.ofNat 10 w))
  else if w < 2 ^ 14 then some (.cmd14 (BitVec.ofNat 14 w))
  else none

/-- The instruction the decoder reads from a table row's bits; none where the word is illegal or wider than its
format. -/
def decodeTableWord (nbits w : Nat) : Option Instr :=
  match tableWord nbits w with
  | none => none
  | some x =>
    match decodeWord Opc.ds x with
    | .ok i => some i
    | .error _ => none

end Sys2Proof
end

