-- ==== Sys2Proof/Machine/Operands.lean ====
section
/-! DEFINITION. The operand forms: the frame of an instruction and its inverse (R73 to R75), the address translator (R110 to R115). -/

namespace Sys2Proof.Machine

/-- One bit of an instruction as a byte, for the shifts of R74. -/
def insBit (I : Ins10) (k : Nat) : Byte := (I.extractLsb' k 1).setWidth 8

/-- `byte1(I) = 0xF8 | (I[8] << 2) | (I[9] << 1)` (R74). -/
def frameByte1 (I : Ins10) : Byte := 0xF8 ||| (insBit I 8 <<< 2) ||| (insBit I 9 <<< 1)

/-- `byte2(I) = I[7:0] & 0xF0` (R74). -/
def frameByte2 (I : Ins10) : Byte := I.extractLsb' 0 8 &&& 0xF0

/-- `byte3(I) = (I[7:0] & 0x0F) << 4` (R74). -/
def frameByte3 (I : Ins10) : Byte := (I.extractLsb' 0 8 &&& 0x0F) <<< 4

/-- A byte triple is a valid frame (R75). -/
def isFrame (b1 b2 b3 : Byte) : Bool :=
  b1 &&& 0xF9 == 0xF8 && b2 &&& 0x0F == 0 && b3 &&& 0x0F == 0

/-- `unframe(b1, b2, b3) = { b1[1], b1[2], b2[7:4], b3[7:4] }` (R75). -/
def unframe (b1 b2 b3 : Byte) : Ins10 :=
  b1.extractLsb' 1 1 ++ b1.extractLsb' 2 1 ++ b2.extractLsb' 4 4 ++ b3.extractLsb' 4 4

/-- `unframe` on valid frames alone; a triple that is none has no instruction (R76). -/
def unframe? (b1 b2 b3 : Byte) : Option Ins10 :=
  if isFrame b1 b2 b3 then some (unframe b1 b2 b3) else none

/-- The four events `INS(I)` stands for (R9, R90). -/
def insEvents (I : Ins10) : List Event :=
  [.tx (frameByte1 I), .tx (frameByte2 I), .tx (frameByte3 I), .dly .std]

/-- `toDdram` (R110), by its three ranges. The position has 5 bits, so every value is in the domain (R112). -/
def toDdram (p : BitVec 5) : BitVec 6 :=
  if p.toNat ≤ 7 ∨ 24 ≤ p.toNat then p.setWidth 6
  else if p.toNat ≤ 15 then p.setWidth 6 + 8
  else p.setWidth 6 - 8

/-- `toDdram` typed over the naturals: no value outside [0,31] (R112, D10, U1). -/
def toDdramNat (p : Nat) : Option (BitVec 6) :=
  if p < 32 then some (toDdram (BitVec.ofNat 5 p)) else none

/-- The translator port `xl_addr` as a function of `xl_pos` alone (R115). -/
def xlAddr (xlPos : BitVec 5) : BitVec 6 := toDdram xlPos

end Sys2Proof.Machine
end

