-- ==== Sys2Proof/Machine/Ops.lean ====
section
/-! DEFINITION. The named operations every meaning is written with: reset, the command channel, IllegalCommand, the codec, the tracker, set-address. -/

namespace Sys2Proof.Machine

/-- Go on with the state an operation answers; a fault or a refusal is the outcome of the whole step, and nothing
written before it is kept (R120, R175). -/
def andThen (a : Answer) (f : State → Answer) : Answer :=
  match a with
  | .next s => f s
  | .fault r => .fault r
  | .refused r => .refused r

/-- Asserting `rst` at the start of a further run (R190): the block's state as R33 lists it, nothing emitted, the
controller untouched, the opcode record as it was; `iset` is again unspecified. Log entry 11. -/
def assertReset (s : State) : State :=
  State.afterReset s.opc (Config.freeISet s.freeCount) s.ctl (s.freeCount + 1)

/-- Accept the next command of the host (R47): the word, and the state with that word consumed. None when the host
presents nothing and the block stays idle. -/
def acceptCommand (s : State) : Option (Word × State) :=
  match s.cmds with
  | [] => none
  | w :: rest => some (w, s.setCmds rest)

/-- `raise IllegalCommand` (R171): `err <- 1`, nothing else changes and nothing is emitted. It is the block's one
synchronous error: no state is saved and there is nothing to return to (R174). -/
def raiseIllegalCommand (s : State) : State := raiseErr s

/-- Everything of the controller's ghost state is a free value. -/
def freeController (n : Nat) : Controller := ⟨Config.freeISet n, Config.freeAttrs n, Config.freeAddr n⟩

/-- What the spec says a received instruction does to the controller's ghost state (R28, R77): a function set selects
its set; display control in the Basic set replaces the three settings and no more, so that its repeat changes nothing
(R49); set-address in the Basic set loads the address counter. Everything the spec leaves open is a free value: the
address counter after a data write, clear display, entry mode and a function set (N11, U14); settings and counter after
display control and the counter after set-address in the Extended set (U15); all three elements after an instruction
with no name.
An instruction with RW = 1 leaves all three elements free too, whether or not it has a name under OPC: the spec makes
no claim about the controller there (U5, R95), and an OPC that fails `W_write` (R67) does not change that.
DEDUCED: log entries 4, 5. DESIGN CHOICE for RW = 1: log entry 22. -/
def controllerReceives (o : Opc) (I : Ins10) (n : Nat) (c : Controller) : Controller :=
  if I.getLsbD 8 then freeController n
  else match decode10 o I with
  | .funcsetB => { c with cset := .basic, cac := Config.freeAddr n }
  | .funcsetE => { c with cset := .extended, cac := Config.freeAddr n }
  | .dispctrl d u b =>
    match c.cset with
    | .basic => { c with cattr := ⟨d, u, b⟩ }
    | .extended => { c with cattr := Config.freeAttrs n, cac := Config.freeAddr n }
  | .setddram a =>
    match c.cset with
    | .basic => { c with cac := a }
    | .extended => { c with cac := Config.freeAddr n }
  | .clrdisp | .entryR | .write _ => { c with cac := Config.freeAddr n }
  | .send _ | .select _ | .setattr _ _ | .setpos _ | .setaddr _ | .wrdata _ | .clear | .init => freeController n

/-- The frame just emitted reaches the controller: ghost state only. -/
def deliver (I : Ins10) (s : State) : State :=
  (s.setCtl (controllerReceives s.opc I s.freeCount s.ctl)).setFreeCount (s.freeCount + 1)

/-- The codec's operation `SEND(I)` (R90): three bytes and the settle request, in that order, whatever `I` is (R91,
R92, R93). It writes none of the block's state (R96). -/
def sendIns (I : Ins10) (s : State) : State :=
  deliver I ((((s.emit (.tx (frameByte1 I))).emit (.tx (frameByte2 I))).emit (.tx (frameByte3 I))).emit (.dly .std))

/-- `emit DLY(LONG)` (R11): the long settle after clear display. -/
def longSettle (s : State) : State := s.emit (.dly .long)

/-- The tracker's operation `SELECT(t)` (R100): nothing when `t` is already recorded, else the function set and the
record. Reading `iset` before an `INIT` has completed is the spec's own model fault, with no successor state: R175, R30,
D8, U3 and the vector V-SEL-5. -/
def selectSet (t : InstrSet) (s : State) : Answer :=
  if s.initDone then
    if s.iset = t then .next s
    else .next ((sendIns (funcsetWord s.opc t) s).setIset t)
  else .fault .uninitialisedISet

/-- `SELECT(Basic)` and then a send in the Basic set: the pattern of R104. -/
def sendInBasic (I : State → Ins10) (s : State) : Answer :=
  andThen (selectSet .basic s) fun s' => .next (sendIns (I s') s')

/-- `SETADDR(a)` (R116), which `SETPOS` includes (R117). -/
def setAddress (a : BitVec 6) (s : State) : Answer :=
  sendInBasic (fun s' => setddramWord s'.opc a) s

/-- Write one display attribute (R120): 0 Display, 1 CursorUnderline, 2 CursorBlink. -/
def writeAttr (w : BitVec 2) (v : Bool) (s : State) : State :=
  if w = 0 then s.setAttrD v
  else if w = 1 then s.setAttrU v
  else if w = 2 then s.setAttrB v
  else s

/-- Resend all three attributes jointly, in the Basic set (R120, R122). -/
def resendAttrs (s : State) : Answer :=
  sendInBasic (fun s' => dispWord s'.opc s'.attrD s'.attrU s'.attrB) s

/-- Place the word a table row's bits stand for where the next step accepts its command; an instruction of the table's
layer 2 is written with `OPC_DS`, so that instance goes with it. Log entries 8, 21. -/
def placeTableWord (s : State) (nbits w : Nat) : State :=
  match tableWord nbits w with
  | some (.st7920 I) => (s.setOpc Opc.ds).setCmds (.st7920 I :: s.cmds)
  | some (.cmd14 c) => s.setCmds (.cmd14 c :: s.cmds)
  | none => s

end Sys2Proof.Machine
end

