-- ==== Sys2Proof/Machine/AddressTranslator.lean ====
section
/-! DEFINITION. The display-address translator's commands (42_address_translator.md): SETPOS, SETADDR. -/

namespace Sys2Proof.Machine

/-- `SETPOS p` (R117): set-address to the translated position. -/
def execSetpos (p : BitVec 5) (s : State) : Answer := setAddress (toDdram p) s

/-- `SETADDR a` (R116): set-address to `a` as given; 32 to 63 are legal operands (R176, R195). -/
def execSetaddr (a : BitVec 6) (s : State) : Answer := setAddress a s

end Sys2Proof.Machine
end

