-- ==== Sys2Proof/Machine/Codec.lean ====
section
/-! DEFINITION. The instruction codec (40_codec.md): SEND. -/

namespace Sys2Proof.Machine

/-- `SEND I` (R90 to R96): the frame of `I` and its settle request; every `I` is legal, RW = 1 included (R95), and no
state of the block is read or written, whatever `I` means (R93, R96). -/
def execSend (I : Ins10) (s : State) : Answer := .next (sendIns I s)

end Sys2Proof.Machine
end

