-- ==== Sys2Proof/Machine/DisplayControl.lean ====
section
/-! DEFINITION. The display-control register (43_display_control.md): SETATTR. -/

namespace Sys2Proof.Machine

/-- `SETATTR w, v` (R120): write one attribute, then resend all three in the Basic set, changed or not (R122). The
selector 3 is an illegal command, rejected before anything is read or written (R123, R173). -/
def execSetattr (w : BitVec 2) (v : Bool) (s : State) : Answer :=
  if w = badSelectorCode then .next (raiseIllegalCommand s)
  else resendAttrs (writeAttr w v s)

end Sys2Proof.Machine
end

