-- ==== Sys2Proof/Machine/Emitted.lean ====
section
/-! DEFINITION. The seven emitted instructions (30_encoding.md R68 to R72), each sent by itself by the codec. None touches the tracker or the attribute register (R96). Log entry 7. -/

namespace Sys2Proof.Machine

/-- `FUNCSET.B` (R68): the codec sends `FUNCSET(Basic)`; `iset` is not written (R96). -/
def execFuncsetB (s : State) : Answer := .next (sendIns (funcsetWord s.opc .basic) s)

/-- `FUNCSET.E` (R68): the codec sends `FUNCSET(Extended)`; `iset` is not written (R96). -/
def execFuncsetE (s : State) : Answer := .next (sendIns (funcsetWord s.opc .extended) s)

/-- `DISPCTRL d,u,b` (R69): the codec sends `DISP(d,u,b)`; the attributes are not written (R96). -/
def execDispctrl (d u b : Bool) (s : State) : Answer := .next (sendIns (dispWord s.opc d u b) s)

/-- `CLRDISP` (R70): the codec sends clear display; the long settle is its sender's (R93, R131). -/
def execClrdisp (s : State) : Answer := .next (sendIns s.opc.clear s)

/-- `ENTRY.R` (R70): the codec sends entry mode, cursor moves right. -/
def execEntryR (s : State) : Answer := .next (sendIns s.opc.entryRight s)

/-- `SETDDRAM a` (R71): the codec sends `SETDDRAM(a)`. -/
def execSetddram (a : BitVec 6) (s : State) : Answer := .next (sendIns (setddramWord s.opc a) s)

/-- `WRITE b` (R72): the codec sends `WRITE(b)`. -/
def execWrite (b : Byte) (s : State) : Answer := .next (sendIns (writeWord s.opc b) s)

end Sys2Proof.Machine
end

