-- ==== Sys2Proof/Machine/InitAndData.lean ====
section
/-! DEFINITION. Initialization, clear display and data write (44_init_and_data.md): INIT, CLEAR, WRDATA. -/

namespace Sys2Proof.Machine

/-- Step 2 of INIT (R130): force the record to Basic and send the function set unconditionally. -/
def initForceBasic (s : State) : State := sendIns s.opc.fsBasic (s.setIset .basic)

/-- Step 3 of INIT (R130, R135): the default attributes, stored and sent. -/
def initDefaultAttrs (s : State) : State :=
  sendIns (dispWord s.opc true true true) (((s.setAttrD true).setAttrU true).setAttrB true)

/-- Step 4 of INIT and the send of CLEAR (R130, R131): clear display and its long settle. -/
def clearDisplay (s : State) : State := longSettle (sendIns s.opc.clear s)

/-- Step 5 of INIT (R130): entry mode, cursor moves right. -/
def initEntryMode (s : State) : State := sendIns s.opc.entryRight s

/-- `INIT` (R130, R133): steps 2 to 5, in order, in every state; `iset` is written without being read. -/
def execInit (s : State) : Answer :=
  .next ((initEntryMode (clearDisplay (initDefaultAttrs (initForceBasic s)))).setInitDone true)

/-- `CLEAR` (R131): SELECT(Basic), clear display, the long settle after the standard one. -/
def execClear (s : State) : Answer :=
  andThen (selectSet .basic s) fun s' => .next (clearDisplay s')

/-- `WRDATA b` (R132): one data byte; no state is read, so it is legal before INIT. -/
def execWrdata (b : Byte) (s : State) : Answer := .next (sendIns (writeWord s.opc b) s)

end Sys2Proof.Machine
end

