-- ==== Sys2Proof/Machine/Tracker.lean ====
section
/-! DEFINITION. The instruction-set mode tracker (41_mode_tracker.md): SELECT. -/

namespace Sys2Proof.Machine

/-- `SELECT t` (R100, R103). -/
def execSelect (t : InstrSet) (s : State) : Answer := selectSet t s

end Sys2Proof.Machine
end

