-- ==== Sys2Proof/Machine/Dispatch.lean ====
section
/-! DEFINITION. exec: one arm per constructor of Instr. -/

namespace Sys2Proof.Machine

def exec (i : Instr) (s : State) : Host.Outcome State Fault Refusal :=
  match i with
  -- the host's commands (R62)
  | .send I => Sys2Proof.Machine.execSend I s
  | .select t => Sys2Proof.Machine.execSelect t s
  | .setattr w v => Sys2Proof.Machine.execSetattr w v s
  | .setpos p => Sys2Proof.Machine.execSetpos p s
  | .setaddr a => Sys2Proof.Machine.execSetaddr a s
  | .wrdata b => Sys2Proof.Machine.execWrdata b s
  | .clear => Sys2Proof.Machine.execClear s
  | .init => Sys2Proof.Machine.execInit s
  -- the emitted instructions (R68 to R72)
  | .funcsetB => Sys2Proof.Machine.execFuncsetB s
  | .funcsetE => Sys2Proof.Machine.execFuncsetE s
  | .dispctrl d u b => Sys2Proof.Machine.execDispctrl d u b s
  | .clrdisp => Sys2Proof.Machine.execClrdisp s
  | .entryR => Sys2Proof.Machine.execEntryR s
  | .setddram a => Sys2Proof.Machine.execSetddram a s
  | .write b => Sys2Proof.Machine.execWrite b s

end Sys2Proof.Machine
end

