-- ==== Sys2Proof/Machine/Step.lean ====
section
/-! DEFINITION. One step of the block: accept one command and run it to completion (R47). -/

namespace Sys2Proof.Machine

/-- One step (R8, R47): the next command is accepted, decoded and run as one atomic step; an illegal word is consumed
and raises IllegalCommand before any state is read (R171, R173); with no command presented the block stays idle. -/
def step (s : State) : Host.Outcome State Fault Refusal :=
  match acceptCommand s with
  | none => .next s
  | some (w, s') =>
    match decodeWord s'.opc w with
    | .ok i => exec i s'
    | .error _ => .next (raiseIllegalCommand s')

/-- `s` with a table row's word placed where the next step accepts its command. Log entries 8, 21. -/
def State.withFetchWord (s : State) (nbits w : Nat) : State := placeTableWord s nbits w

end Sys2Proof.Machine
end

