-- ==== Sys2Proof/Machine/HostEmitters.lean ====
section
/-! DEFINITION. Host software, outside the block (45_host_emitters.md, R150): the public operations (R160) as the words they make the host present. No instruction and no step uses this file. Log entry 18. -/

namespace Sys2Proof.Machine

/-- The word of a command; a command's encoding holds no value of OPC (R61, R63). -/
def cmdWord (i : Instr) : Word := encode Opc.ds i

/-- `initialize()` (R79), after the transport has been configured (R134). -/
def hostInitialize : List Word := [cmdWord .init]

/-- `clear()` (R79). -/
def hostClear : List Word := [cmdWord .clear]

/-- `setAttribute(which, value)` (R79). -/
def hostSetAttribute (which : BitVec 2) (value : Bool) : List Word := [cmdWord (.setattr which value)]

/-- The starting half-width position `row * 16 + column` (R151); none outside the scheme's rows and columns. -/
def halfWidthStart (row column : Nat) : Option Nat :=
  if row < 4 ∧ column < 16 then some (row * 16 + column) else none

/-- The starting full-width position `row * 8 + column` (R151); none outside the scheme's rows and columns. -/
def fullWidthStart (row column : Nat) : Option Nat :=
  if row < 4 ∧ column < 8 then some (row * 8 + column) else none

/-- `SETPOS (h >> 1)`: position the cursor at the cell of a half-width position (R153). -/
def positionHalf (h : Nat) : Word := cmdWord (.setpos (BitVec.ofNat 5 (h / 2)))

/-- The half-width boundary test, at the fixed positions 16, 32, 48 (R156). -/
def halfBoundary (k : Nat) : Bool := k == 16 || k == 32 || k == 48

/-- The counter the boundary test looks at (R156). -/
def boundaryCounter (origin : HwCounterOrigin) (h i : Nat) : Nat :=
  match origin with
  | .absolute => h
  | .runRelative => i

/-- The write loop of R155 from index `i` and half-width position `h`, and the trailing blank after it. -/
def halfWidthLoop (origin : HwCounterOrigin) (blank : Byte) : Nat → Nat → List Byte → List Word
  | _, h, [] => if h % 2 = 1 then [cmdWord (.wrdata blank)] else []
  | i, h, c :: rest =>
    (if 0 < i ∧ halfBoundary (boundaryCounter origin h i) = true then [positionHalf h] else []) ++
      cmdWord (.wrdata c) :: halfWidthLoop origin blank (i + 1) (h + 1) rest

/-- `writeHalfWidth(text, length, row, column)` (R155): none where the run is out of range or longer than the text, for
which the spec claims nothing (U17, N26). -/
def writeHalfWidth (origin : HwCounterOrigin) (blank : Byte) (text : List Byte) (length row column : Nat) :
    Option (List Word) :=
  match halfWidthStart row column with
  | none => none
  | some h =>
    if length ≤ text.length ∧ h + length ≤ 64 then
      some (positionHalf h :: ((if h % 2 = 1 then [cmdWord (.wrdata blank)] else []) ++
        halfWidthLoop origin blank 0 h (text.take length)))
    else none

/-- `SETPOS p` then `SELECT(Extended)`: position the cursor for full-width data (R157). -/
def positionFull (p : Nat) : List Word := [cmdWord (.setpos (BitVec.ofNat 5 p)), cmdWord (.select .extended)]

/-- The write loop of R157 from index `i` and position `p`: high byte, then low byte (R46). -/
def fullWidthLoop : Nat → Nat → List (BitVec 16) → List Word
  | _, _, [] => []
  | i, p, g :: rest =>
    (if 0 < i ∧ p % 8 = 0 then positionFull p else []) ++
      cmdWord (.wrdata (g.extractLsb' 8 8)) :: cmdWord (.wrdata (g.extractLsb' 0 8)) ::
        fullWidthLoop (i + 1) (p + 1) rest

/-- `writeFullWidth(glyphs, length, row, column)` (R157): none where the run is out of range or longer than the
glyphs, for which the spec claims nothing (U17, N26). -/
def writeFullWidth (glyphs : List (BitVec 16)) (length row column : Nat) : Option (List Word) :=
  match fullWidthStart row column with
  | none => none
  | some p =>
    if length ≤ glyphs.length ∧ p + length ≤ 32 then
      some (positionFull p ++ fullWidthLoop 0 p (glyphs.take length))
    else none

end Sys2Proof.Machine
end

