-- ==== Sys2Proof/Safety.lean ====
section
/-! DEFINITION. What counts as a safe run (R205, D9), the event list read back as instructions (R9, R75), and what a list of events costs (R204). -/

namespace Sys2Proof.Machine

/-- A part of the event list: one instruction event `INS(I)` (R9), or a long delay request. -/
inductive StreamItem where
  | ins (I : Ins10)
  | long
  deriving DecidableEq, Repr

/-- The event list read back as whole instructions: three bytes that make a valid frame and their settle request, or a
long delay request; none where the list is not made of these (R9, R75, R91). -/
def readBack : List Event → Option (List StreamItem)
  | [] => some []
  | .dly .long :: rest => (readBack rest).map (StreamItem.long :: ·)
  | .tx b1 :: .tx b2 :: .tx b3 :: .dly .std :: rest =>
    match unframe? b1 b2 b3 with
    | some I => (readBack rest).map (StreamItem.ins I :: ·)
    | none => none
  | _ => none

/-- Every long delay request stands right after a clear-display instruction; `after` says whether the item before was
one (R130, R131). -/
def longsFollowClear (o : Opc) : Bool → List StreamItem → Bool
  | _, [] => true
  | after, .long :: rest => after && longsFollowClear o false rest
  | _, .ins I :: rest => longsFollowClear o (I == o.clear) rest

/-- The event list is a well-framed stream: whole instructions, each with its settle request, and a long settle only
after clear display (R75, R91, R92). -/
def WellFramed (s : State) : Bool :=
  match readBack s.events with
  | some items => longsFollowClear s.opc false items
  | none => false

/-- The tracker's invariant (R29): once an INIT has completed, the recorded set is the controller's. -/
abbrev TrackerMirrors (s : State) : Prop := s.initDone = true → s.iset = s.ctl.cset

/-- The attribute invariant (R31): once an INIT has completed, the stored attributes are the controller's. -/
abbrev AttrsMirror (s : State) : Prop := s.initDone = true → s.attrs = s.ctl.cattr

/-- The host has no further command for the block: the run has ended (R205). -/
def Ended (s : State) : Bool := s.cmds.isEmpty

/-- A run that has met an illegal command is faulted; claims take `err = 0` at the end as a premise (R205, D9). -/
def Faulted (s : State) : Bool := s.err

/-- The number of instruction events in a list of events, counted by their settle requests (R91, R204). -/
def stdDelays (es : List Event) : Nat := es.count (.dly .std)

/-- The number of long delay requests in a list of events (R204). -/
def longDelays (es : List Event) : Nat := es.count (.dly .long)

/-- The number of byte transfers in a list of events (R204). -/
def transfers (es : List Event) : Nat := es.countP fun e => match e with
  | .tx _ => true
  | .dly _ => false

/-- The least time, in microseconds, that a list of events takes when one byte transfer takes `tByte` (R204). No rule
depends on it. Log entry 15. -/
def minDuration (tByte : Nat) (es : List Event) : Nat :=
  transfers es * tByte + stdDelays es * Config.tStd + longDelays es * Config.tLong

end Sys2Proof.Machine
end

