-- ==== Sys2Proof/Certificates/Slice0/Obligations.lean ====
section
/-! DEFINITION. The statements for the provers, each from the spec's numbered rules, and the few terms they share. -/

namespace Sys2Proof.Machine

/-- The four events of `INS(I)` written field by field as the tables of R73 draw them: `11111 RW RS 0`, the high nibble
over zeros, the low nibble over zeros, then the settle request. -/
def frameFields (I : Ins10) : List Event :=
  [ .tx ((0b11111 : BitVec 5) ++ I.extractLsb' 8 1 ++ I.extractLsb' 9 1 ++ (0 : BitVec 1)),
    .tx (I.extractLsb' 4 4 ++ (0 : BitVec 4)), .tx (I.extractLsb' 0 4 ++ (0 : BitVec 4)), .dly .std ]

/-- The state after the codec has sent `I` in `s`: four more events, the ghost state, nothing else. -/
def afterSend (s : State) (I : Ins10) : State :=
  { s with
    events := s.events ++ frameFields I
    ctl := controllerReceives s.opc I s.freeCount s.ctl
    freeCount := s.freeCount + 1 }

/-- The state after SELECT(Basic) in `s`, once an INIT has completed: unchanged in Basic, else function set and
record. -/
def afterSelectBasic (s : State) : State :=
  match s.iset with
  | .basic => s
  | .extended => { afterSend s s.opc.fsBasic with iset := .basic }

/-- The attributes after SETATTR has written one of the three (R120). -/
def withAttr (s : State) (w : BitVec 2) (v : Bool) : State :=
  { s with
    attrD := if w = 0 then v else s.attrD
    attrU := if w = 1 then v else s.attrU
    attrB := if w = 2 then v else s.attrB }

/-- The commands that read `iset`, by SELECT or through it (R175). -/
def readsIset : Instr → Bool
  | .select _ | .setpos _ | .setaddr _ | .clear => true
  | .setattr w _ => w != badSelectorCode
  | .send _ | .wrdata _ | .init | .funcsetB | .funcsetE | .dispctrl _ _ _ | .clrdisp | .entryR | .setddram _
  | .write _ => false

/-- The positions of a sequence of SELECT targets at which the target differs from the set recorded just before
(R102). -/
def switches : InstrSet → List InstrSet → Nat
  | _, [] => 0
  | cur, t :: ts => (if cur = t then 0 else 1) + switches t ts

/-- What a command emits when SELECT(Basic) goes before one instruction (R204). -/
def oneOrTwo : InstrSet → Nat
  | .basic => 1
  | .extended => 2

/-- The instructions a command emits (R204); an emitted instruction by itself is one. -/
def instructionsEmitted (s : State) : Instr → Nat
  | .send _ | .wrdata _ => 1
  | .select t => if s.iset = t then 0 else 1
  | .setattr w _ => if w = badSelectorCode then 0 else oneOrTwo s.iset
  | .setpos _ | .setaddr _ | .clear => oneOrTwo s.iset
  | .init => 4
  | .funcsetB | .funcsetE | .dispctrl _ _ _ | .clrdisp | .entryR | .setddram _ | .write _ => 1

/-- The long delays a command requests (R204). -/
def longsRequested : Instr → Nat
  | .clear | .init => 1
  | .send _ | .select _ | .setattr _ _ | .setpos _ | .setaddr _ | .wrdata _ | .funcsetB | .funcsetE | .dispctrl _ _ _
  | .clrdisp | .entryR | .setddram _ | .write _ => 0

/-- An instruction that the tracker's invariant excludes (R29): a raw send whose value is a function set, or has no
name under OPC. -/
def rawTouchesSet (o : Opc) : Instr → Bool
  | .send I =>
    match decode10 o I with
    | .funcsetB | .funcsetE => true
    | .dispctrl _ _ _ | .clrdisp | .entryR | .setddram _ | .write _ => false
    | .send _ | .select _ | .setattr _ _ | .setpos _ | .setaddr _ | .wrdata _ | .clear | .init => true
  | .funcsetB | .funcsetE => true
  | .dispctrl _ _ _ | .clrdisp | .entryR | .setddram _ | .write _ => false
  | .select _ | .setattr _ _ | .setpos _ | .setaddr _ | .wrdata _ | .clear | .init => false

/-- An instruction that the attribute invariant excludes (R31): one the tracker's invariant excludes, or a raw send of
a display-control value. -/
def rawTouchesAttrs (o : Opc) : Instr → Bool
  | .send I =>
    match decode10 o I with
    | .dispctrl _ _ _ => true
    | .funcsetB | .funcsetE | .clrdisp | .entryR | .setddram _ | .write _ | .send _ | .select _ | .setattr _ _
    | .setpos _ | .setaddr _ | .wrdata _ | .clear | .init => rawTouchesSet o (.send I)
  | .dispctrl _ _ _ => true
  | .funcsetB | .funcsetE => true
  | .clrdisp | .entryR | .setddram _ | .write _ => false
  | .select _ | .setattr _ _ | .setpos _ | .setaddr _ | .wrdata _ | .clear | .init => false

/-- An answer with its `err` bit blanked. -/
def blankErr : Answer → Answer
  | .next t => .next { t with err := false }
  | .fault r => .fault r
  | .refused r => .refused r

/-- An answer with the controller's ghost state and the count of free values replaced by given ones. -/
def blankGhost (c : Controller) (n : Nat) : Answer → Answer
  | .next t => .next { t with ctl := c, freeCount := n }
  | .fault r => .fault r
  | .refused r => .refused r

/-- The SETPOS words among a host's words (R157, R158). -/
def setposCount (ws : List Word) : Nat :=
  ws.countP fun w => match w with
    | .cmd14 c => cmdOp c == 3
    | .st7920 _ => false

end Sys2Proof.Machine

open Sys2Proof Sys2Proof.Machine

/-- R61 to R63: the word of every well-formed command decodes to that command, with every operand at every value. -/
def Obligations.DecodeEncodeCommands : Prop :=
  ∀ (o : Opc) (i : Instr), i.isCommand = true → i.wf = true → decodeWord o (encode o i) = .ok i

/-- R65 to R72: under an OPC instance with the properties of R67 that make the stream readable, the value of every
emitted instruction decodes to it. -/
def Obligations.DecodeEncodeEmitted : Prop :=
  ∀ (o : Opc) (i : Instr), o.WDistinct → o.wDisp = true → o.wAddr6 = true → o.wData = true → i.isCommand = false →
    decodeWord o (encode o i) = .ok i

/-- R63, R64: a command word that decodes is the word of the command it decodes to, which is well formed. -/
def Obligations.EncodeDecodeCommands : Prop :=
  ∀ (o : Opc) (c : Cmd14) (i : Instr), decode14 c = .ok i →
    i.isCommand = true ∧ i.wf = true ∧ encode o i = .cmd14 c

/-- R64: a word decodes exactly when it selects a row of R63 and is not SETATTR with selector 3. -/
def Obligations.WordDecodesExactlyWhenLegal : Prop :=
  ∀ c : Cmd14, (∃ i, decode14 c = .ok i) ↔ legalWord c = true

/-- 95_test_vectors.md V-ENC and R68 to R72 under OPC_DS: a few words decode to what the spec says. -/
def Obligations.WordsOfTheSpecDecode : Prop :=
  decode14 0x0241 = .ok (.send 0x241) ∧ decode14 0x0401 = .ok (.select .extended) ∧
    decode14 0x0804 = .ok (.setattr 2 false) ∧ decode14 0x0C1F = .ok (.setpos 31) ∧
    decode14 0x103F = .ok (.setaddr 63) ∧ decode14 0x14FF = .ok (.wrdata 0xFF) ∧ decode14 0x1800 = .ok .clear ∧
    decode14 0x1C00 = .ok .init ∧ decode10 Opc.ds 0x030 = .funcsetB ∧ decode10 Opc.ds 0x034 = .funcsetE ∧
    decode10 Opc.ds 0x00E = .dispctrl true true false ∧ decode10 Opc.ds 0x001 = .clrdisp ∧
    decode10 Opc.ds 0x006 = .entryR ∧ decode10 Opc.ds 0x090 = .setddram 16 ∧ decode10 Opc.ds 0x241 = .write 0x41

/-- R67's table: OPC_DS has all six properties; whatever the other five values, OPC_DOC's two fail `W_addr6` and meet
`W_data`. -/
def Obligations.OpcInstances : Prop :=
  (Opc.ds.wWrite = true ∧ Opc.ds.wFs = true ∧ Opc.ds.wDisp = true ∧ Opc.ds.wAddr6 = true ∧ Opc.ds.wData = true ∧
      Opc.ds.WDistinct) ∧
    ∀ o : Opc, o.withDoc.wAddr6 = false ∧ o.withDoc.wData = true

/-- R71: with `W_addr6` the address is bits 5:0 of the instruction; with OPC_DOC's base an address in 32..63 has the
value of the address 32 below it. -/
def Obligations.SetddramOperand : Prop :=
  (∀ (o : Opc) (a : BitVec 6), o.wAddr6 = true → (setddramWord o a).extractLsb' 0 6 = a) ∧
    ∀ (o : Opc) (a : BitVec 6), 32 ≤ a.toNat → setddramWord o.withDoc a = setddramWord o.withDoc (a - 32)

/-- R69: with `W_disp`, display is bit 2, underline bit 1, blink bit 0, and every other bit is DISP_BASE's (the reading
D14 of the spec, log entry 13). -/
def Obligations.DisplayControlBits : Prop :=
  ∀ (o : Opc) (d u b : Bool), o.wDisp = true →
    (dispWord o d u b).extractLsb' 0 3 = BitVec.ofBool d ++ BitVec.ofBool u ++ BitVec.ofBool b ∧
      (dispWord o d u b).extractLsb' 3 7 = o.dispBase.extractLsb' 3 7

/-- R73, R74, R75: every instruction's three bytes are a valid frame that reads back as it, and every valid frame is
the frame of what it reads back as. -/
def Obligations.FrameRoundTrip : Prop :=
  (∀ I : Ins10, unframe? (frameByte1 I) (frameByte2 I) (frameByte3 I) = some I) ∧
    ∀ (b1 b2 b3 : Byte) (I : Ins10), unframe? b1 b2 b3 = some I →
      frameByte1 I = b1 ∧ frameByte2 I = b2 ∧ frameByte3 I = b3

/-- R90, R91: SEND emits exactly the frame of its operand and one settle request, whatever the operand and the state,
and writes no state of the block. -/
def Obligations.SendEmitsFrame : Prop :=
  (∀ (o : Opc) (I : Ins10), decodeWord o (.cmd14 ((0 : BitVec 4) ++ I)) = .ok (.send I)) ∧
    ∀ (I : Ins10) (s : State), exec (.send I) s = .next (afterSend s I)

/-- R100: SELECT, in each of its three cases, and the words of it that are illegal. -/
def Obligations.SelectMeaning : Prop :=
  (∀ (t : InstrSet) (s : State), s.initDone = true → s.iset = t → exec (.select t) s = .next s) ∧
    (∀ (t : InstrSet) (s : State), s.initDone = true → s.iset ≠ t →
      exec (.select t) s =
        .next { afterSend s (match t with | .basic => s.opc.fsBasic | .extended => s.opc.fsExt) with iset := t }) ∧
    (∀ (t : InstrSet) (s : State), s.initDone = false → exec (.select t) s = .fault .uninitialisedISet) ∧
    ∀ c : Cmd14, cmdOp c = 1 → c.extractLsb' 1 9 ≠ 0 → decode14 c = .error .reservedBits

/-- R101: SELECT t; SELECT t is SELECT t, on the state and on the bus. -/
def Obligations.SelectIsIdempotent : Prop :=
  ∀ (t : InstrSet) (s s' : State), exec (.select t) s = .next s' → exec (.select t) s' = .next s'

/-- R102: over any run of SELECT commands that starts with `iset` defined, the instructions emitted are function sets,
one for each position at which the target differs from the set recorded just before it. -/
def Obligations.SelectCountsSwitches : Prop :=
  ∀ (ts : List InstrSet) (s : State), s.initDone = true → s.cmds = ts.map (fun t => encode s.opc (.select t)) →
    ∃ (t : State) (es : List Event) (items : List StreamItem),
      Host.Core.run core ts.length s = .next t ∧ t.events = s.events ++ es ∧ readBack es = some items ∧
        items.length = switches s.iset ts ∧ ∀ x ∈ items, x = .ins s.opc.fsBasic ∨ x = .ins s.opc.fsExt

/-- R20, R21, R103: `iset` is written by SELECT to its target, to Basic by INIT and by the four commands that select
Basic, and by nothing else. -/
def Obligations.WhoWritesIset : Prop :=
  ∀ (i : Instr) (s t : State), exec i s = .next t → t.iset ≠ s.iset →
    i = .select t.iset ∨
      (t.iset = .basic ∧ (i = .init ∨ i = .clear ∨ (∃ w v, i = .setattr w v) ∨ (∃ p, i = .setpos p) ∨ ∃ a, i = .setaddr a))

/-- R120: SETATTR writes one attribute, selects Basic and resends all three; before INIT it is the model fault; with
selector 3 or a reserved bit it is an illegal command. -/
def Obligations.SetattrMeaning : Prop :=
  (∀ (w : BitVec 2) (v : Bool) (s : State), w ≠ 3 → s.initDone = true →
      exec (.setattr w v) s =
        .next (afterSend (afterSelectBasic (withAttr s w v))
          (dispWord s.opc (withAttr s w v).attrD (withAttr s w v).attrU (withAttr s w v).attrB))) ∧
    (∀ (w : BitVec 2) (v : Bool) (s : State), w ≠ 3 → s.initDone = false →
      exec (.setattr w v) s = .fault .uninitialisedISet) ∧
    (∀ (v : Bool) (s : State), exec (.setattr 3 v) s = .next { s with err := true }) ∧
    (∀ c : Cmd14, cmdOp c = 2 → c.extractLsb' 3 7 ≠ 0 → decode14 c = .error .reservedBits) ∧
    ∀ c : Cmd14, cmdOp c = 2 → c.extractLsb' 3 7 = 0 → c.extractLsb' 1 2 = 3 → decode14 c = .error .badSelector

/-- R20, R22: the attributes are written by SETATTR, one of the three and to its operand, and by INIT, all to 1. -/
def Obligations.WhoWritesAttributes : Prop :=
  ∀ (i : Instr) (s t : State), exec i s = .next t → t.attrs ≠ s.attrs →
    (i = .init ∧ t.attrs = ⟨true, true, true⟩) ∨
      ∃ w v, i = .setattr w v ∧
        ((w = 0 ∧ t.attrs = ⟨v, s.attrU, s.attrB⟩) ∨ (w = 1 ∧ t.attrs = ⟨s.attrD, v, s.attrB⟩) ∨
          (w = 2 ∧ t.attrs = ⟨s.attrD, s.attrU, v⟩))

/-- R111: the translator exchanges bits 3 and 4 of the position, passes bits 2:0 and clears bit 5. -/
def Obligations.TranslatorSwapsBits : Prop :=
  ∀ p : BitVec 5, toDdram p = (0 : BitVec 1) ++ p.extractLsb' 3 1 ++ p.extractLsb' 4 1 ++ p.extractLsb' 0 3

/-- R110: the three ranges of `toDdram`, each with its result; every position lies in exactly one of them and every
result is below 32. -/
def Obligations.TranslatorRanges : Prop :=
  ∀ p : BitVec 5,
    (p.toNat ≤ 7 ∨ (24 ≤ p.toNat ∧ p.toNat ≤ 31) → (toDdram p).toNat = p.toNat) ∧
      (8 ≤ p.toNat ∧ p.toNat ≤ 15 → (toDdram p).toNat = p.toNat + 8) ∧
      (16 ≤ p.toNat ∧ p.toNat ≤ 23 → (toDdram p).toNat = p.toNat - 8) ∧
      (p.toNat ≤ 7 ∨ (24 ≤ p.toNat ∧ p.toNat ≤ 31) ∨ (8 ≤ p.toNat ∧ p.toNat ≤ 15) ∨ (16 ≤ p.toNat ∧ p.toNat ≤ 23)) ∧
      ¬((p.toNat ≤ 7 ∨ 24 ≤ p.toNat) ∧ 8 ≤ p.toNat ∧ p.toNat ≤ 23) ∧ ¬(p.toNat ≤ 15 ∧ 16 ≤ p.toNat) ∧
      (toDdram p).toNat < 32

/-- R112, R113: over the naturals the translator has a value exactly on [0,31]; there it is an involution and keeps the
offset in a quadrant, and consecutive positions have consecutive addresses exactly inside a quadrant. -/
def Obligations.TranslatorOnNaturals : Prop :=
  (∀ p : Nat, 32 ≤ p → toDdramNat p = none) ∧
    (∀ p : Nat, p < 32 → ∃ a : BitVec 6, toDdramNat p = some a ∧
      toDdramNat a.toNat = some (BitVec.ofNat 6 p) ∧ a.toNat % 8 = p % 8) ∧
    ∀ (p : Nat) (a b : BitVec 6), toDdramNat p = some a → toDdramNat (p + 1) = some b →
      (b.toNat = a.toNat + 1 ↔ p % 8 ≠ 7)

/-- R116: SETADDR selects Basic and sends set-address with the operand as given; before INIT it is the model fault;
with a reserved bit it is an illegal command. -/
def Obligations.SetaddrMeaning : Prop :=
  (∀ (a : BitVec 6) (s : State), s.initDone = true →
      exec (.setaddr a) s = .next (afterSend (afterSelectBasic s) (s.opc.setaddrBase ||| a.setWidth 10))) ∧
    (∀ (a : BitVec 6) (s : State), s.initDone = false → exec (.setaddr a) s = .fault .uninitialisedISet) ∧
    ∀ c : Cmd14, cmdOp c = 4 → c.extractLsb' 6 4 ≠ 0 → decode14 c = .error .reservedBits

/-- R117: SETPOS is set-address to the translated position; before INIT it is the model fault; with a reserved bit it is
an illegal command. -/
def Obligations.SetposMeaning : Prop :=
  (∀ (p : BitVec 5) (s : State), s.initDone = true →
      exec (.setpos p) s = .next (afterSend (afterSelectBasic s) (s.opc.setaddrBase ||| (toDdram p).setWidth 10))) ∧
    (∀ (p : BitVec 5) (s : State), exec (.setpos p) s = exec (.setaddr (toDdram p)) s) ∧
    (∀ (p : BitVec 5) (s : State), s.initDone = false → exec (.setpos p) s = .fault .uninitialisedISet) ∧
    ∀ c : Cmd14, cmdOp c = 3 → c.extractLsb' 5 5 ≠ 0 → decode14 c = .error .reservedBits

/-- R132: WRDATA sends write data and reads and writes no state; with `W_data` it emits what SEND of the same value
emits; with a reserved bit it is an illegal command. -/
def Obligations.WrdataMeaning : Prop :=
  (∀ (b : Byte) (s : State), exec (.wrdata b) s = .next (afterSend s (s.opc.wrdataBase ||| b.setWidth 10))) ∧
    (∀ (b : Byte) (s : State), s.opc.wData = true → exec (.wrdata b) s = exec (.send ((0b10 : BitVec 2) ++ b)) s) ∧
    ∀ c : Cmd14, cmdOp c = 5 → c.extractLsb' 8 2 ≠ 0 → decode14 c = .error .reservedBits

/-- R131: CLEAR selects Basic, sends clear display and requests the long delay after the standard one; before INIT it is
the model fault; with an operand bit it is an illegal command. -/
def Obligations.ClearMeaning : Prop :=
  (∀ s : State, s.initDone = true → ∃ t : State, exec .clear s = .next t ∧
      t = { afterSend (afterSelectBasic s) s.opc.clear with
        events := (afterSelectBasic s).events ++ frameFields s.opc.clear ++ [.dly .long] }) ∧
    (∀ s : State, s.initDone = false → exec .clear s = .fault .uninitialisedISet) ∧
    ∀ c : Cmd14, cmdOp c = 6 → cmdArg c ≠ 0 → decode14 c = .error .reservedBits

/-- R130, R133, R135: INIT, in every state, emits its seventeen events, leaves Basic and the default attributes, and
changes nothing else of the block. -/
def Obligations.InitMeaning : Prop :=
  ∀ s : State, ∃ (t : State) (es : List Event), exec .init s = .next t ∧ t.events = s.events ++ es ∧
    es = frameFields s.opc.fsBasic ++ frameFields (dispWord s.opc true true true) ++ frameFields s.opc.clear ++
      [.dly .long] ++ frameFields s.opc.entryRight ∧
    es.length = 17 ∧ t.iset = .basic ∧ t.attrs = ⟨true, true, true⟩ ∧ t.err = s.err ∧ t.initDone = true ∧
    t.cmds = s.cmds ∧ t.opc = s.opc

/-- R133, R28 with the ghost rule of log entry 4 (the model's reading): under `W_write` (without which U5 makes no claim
on the controller, log entry 22), `W_distinct` and `W_disp`, after INIT the controller is in the Basic set with all three
attributes on, so both mirror invariants hold, whatever the controller was before. -/
def Obligations.InitEstablishesMirrors : Prop :=
  ∀ s : State, s.opc.wWrite = true → s.opc.WDistinct → s.opc.wDisp = true → ∃ t : State, exec .init s = .next t ∧
    t.ctl.cset = .basic ∧ t.ctl.cattr = ⟨true, true, true⟩ ∧ TrackerMirrors t ∧ AttrsMirror t

/-- R68 to R72, R96 with log entry 7 (the model's choice): each emitted instruction by itself is the codec's sending of
its value, in every state. -/
def Obligations.EmittedInstructionsAreSent : Prop :=
  (∀ s : State, exec .funcsetB s = .next (afterSend s s.opc.fsBasic)) ∧
    (∀ s : State, exec .funcsetE s = .next (afterSend s s.opc.fsExt)) ∧
    (∀ (d u b : Bool) (s : State), exec (.dispctrl d u b) s = .next (afterSend s (dispWord s.opc d u b))) ∧
    (∀ s : State, exec .clrdisp s = .next (afterSend s s.opc.clear)) ∧
    (∀ s : State, exec .entryR s = .next (afterSend s s.opc.entryRight)) ∧
    (∀ (a : BitVec 6) (s : State), exec (.setddram a) s = .next (afterSend s (s.opc.setaddrBase ||| a.setWidth 10))) ∧
    ∀ (b : Byte) (s : State), exec (.write b) s = .next (afterSend s (s.opc.wrdataBase ||| b.setWidth 10))

/-- R90, R96 with log entry 7 (the model's choice): an emitted instruction presented in its own format steps exactly as
the command SEND of its value does. -/
def Obligations.EmittedWordStepsAsSend : Prop :=
  ∀ (I : Ins10) (s : State) (rest : List Word),
    step { s with cmds := .st7920 I :: rest } = step { s with cmds := .cmd14 ((0 : BitVec 4) ++ I) :: rest }

/-- R171, R173: the sub-cause of an illegal word, in the order of priority, and the one effect of presenting it: the
word is consumed and the flag set, before any state is read. -/
def Obligations.IllegalCommandSetsOneFlag : Prop :=
  (∀ c : Cmd14, decode14 c = .error .reservedOp ↔ 8 ≤ (cmdOp c).toNat) ∧
    (∀ c : Cmd14, decode14 c = .error .reservedBits ↔
      (cmdOp c).toNat < 8 ∧ (cmdRows.all fun r => !r.selects c) = true) ∧
    (∀ c : Cmd14, decode14 c = .error .badSelector ↔ c = 0x0806 ∨ c = 0x0807) ∧
    ∀ (s : State) (c : Cmd14) (rest : List Word), s.cmds = .cmd14 c :: rest → legalWord c = false →
      step s = .next { s with cmds := rest, err := true }

/-- R23, R174: no step clears `err`, and a step sets it only by consuming an illegal command word. -/
def Obligations.ErrIsSticky : Prop :=
  ∀ s t : State, step s = .next t →
    (s.err = true → t.err = true) ∧
      (s.err = false → t.err = true → ∃ (c : Cmd14) (rest : List Word), s.cmds = .cmd14 c :: rest ∧ legalWord c = false)

/-- R23, R174: nothing inside the block reads `err`: a step does the same whatever it is. -/
def Obligations.BlockIgnoresErr : Prop :=
  ∀ (s : State) (v : Bool), blankErr (step { s with err := v }) = blankErr (step s)

/-- R28, R57: the block can read nothing of the controller: a step does the same to the block whatever the ghost state
and the free values are. -/
def Obligations.BlockIgnoresController : Prop :=
  ∀ (s : State) (c : Controller) (n : Nat),
    blankGhost s.ctl s.freeCount (step { s with ctl := c, freeCount := n }) = blankGhost s.ctl s.freeCount (step s)

/-- R30, R175, R176: an instruction has a next state unless it reads `iset` before an INIT has completed, and then it is
the model fault; nothing is refused. -/
def Obligations.OnlyStopIsUninitialisedIset : Prop :=
  ∀ (i : Instr) (s : State),
    (readsIset i = true → s.initDone = false → exec i s = .fault .uninitialisedISet) ∧
      (readsIset i = false ∨ s.initDone = true → ∃ t : State, exec i s = .next t)

/-- R8, R47: a step accepts the next command and is the decoded instruction's exec on the state with that command
consumed; with no command presented the block stays as it is (log entry 6). -/
def Obligations.StepRunsTheCommand : Prop :=
  (∀ (s : State) (w : Word) (rest : List Word) (i : Instr), s.cmds = w :: rest → decodeWord s.opc w = .ok i →
      step s = exec i { s with cmds := rest }) ∧
    ∀ s : State, s.cmds = [] → step s = .next s

/-- R32 gives the attributes after reset and after INIT, R33 `err` and the empty event list, R190 that `rst` leaves the
controller alone. The model's own choices in it: the flag `initDone` (log entry 2), the operation assertReset as the start
of a further run, and that it keeps OPC (log entries 1, 11). -/
def Obligations.ResetValues : Prop :=
  (State.reset.attrs = ⟨true, true, true⟩ ∧ State.reset.err = false ∧ State.reset.initDone = false ∧
      State.reset.events = []) ∧
    (∀ s : State, (assertReset s).attrs = ⟨true, true, true⟩ ∧ (assertReset s).err = false ∧
      (assertReset s).initDone = false ∧ (assertReset s).events = [] ∧ (assertReset s).ctl = s.ctl ∧
      (assertReset s).opc = s.opc) ∧
    ∀ s t : State, exec .init s = .next t → t.attrs = ⟨true, true, true⟩

/-- R75, R91, R92, R130, R131: every step keeps the event list a stream of whole instructions, each a valid frame and
its settle request, with a long settle only after clear display. -/
def Obligations.StepKeepsWellFramed : Prop :=
  ∀ s t : State, WellFramed s = true → step s = .next t → WellFramed t = true

/-- R33: the event list of the reset state is such a stream. -/
def Obligations.ResetIsWellFramed : Prop :=
  WellFramed State.reset = true

/-- R9, R47, R51: a step only appends to the event list, consumes at most one command, and writes neither OPC (R34) nor,
once set, the record that an INIT has completed, which only INIT sets. -/
def Obligations.StepOnlyAppends : Prop :=
  ∀ s t : State, step s = .next t →
    (∃ es, t.events = s.events ++ es) ∧ t.cmds = s.cmds.tail ∧ t.opc = s.opc ∧
      (s.initDone = true → t.initDone = true) ∧
      (s.initDone = false → t.initDone = true → s.cmds.head? = some (.cmd14 0x1C00))

/-- R29 with the ghost rule of log entry 4 (the model's reading): under `W_write` (log entry 22) and `W_distinct`, every step
keeps `iset = cset`, unless it sends raw a function set or a value with no name. -/
def Obligations.StepKeepsTrackerMirror : Prop :=
  ∀ s t : State, s.opc.wWrite = true → s.opc.WDistinct → TrackerMirrors s →
    (∀ w rest i, s.cmds = w :: rest → decodeWord s.opc w = .ok i → rawTouchesSet s.opc i = false) →
    step s = .next t → TrackerMirrors t

/-- R31 with the ghost rule of log entry 4 (the model's reading): under `W_write` (log entry 22), `W_distinct` and `W_disp`,
every step keeps the stored attributes equal to the controller's, unless it sends raw a function set, a display control
or a value with no name. -/
def Obligations.StepKeepsAttrsMirror : Prop :=
  ∀ s t : State, s.opc.wWrite = true → s.opc.WDistinct → s.opc.wDisp = true → TrackerMirrors s → AttrsMirror s →
    (∀ w rest i, s.cmds = w :: rest → decodeWord s.opc w = .ok i → rawTouchesAttrs s.opc i = false) →
    step s = .next t → AttrsMirror t

/-- R28, R117 with the ghost rules of log entries 4 and 5 (the model's reading): where the mirror holds, and under `W_write`
(log entry 22), `W_distinct` and `W_addr6`, SETPOS leaves the controller's address counter at the translated position. -/
def Obligations.SetposLoadsAddressCounter : Prop :=
  ∀ (p : BitVec 5) (s : State), s.initDone = true → TrackerMirrors s → s.opc.wWrite = true → s.opc.WDistinct →
    s.opc.wAddr6 = true →
    ∃ t : State, exec (.setpos p) s = .next t ∧ t.ctl.cac = toDdram p

/-- R204: what each command costs in instructions, byte transfers and delay requests. -/
def Obligations.CommandCost : Prop :=
  ∀ (i : Instr) (s t : State), exec i s = .next t → ∃ es : List Event, t.events = s.events ++ es ∧
    stdDelays es = instructionsEmitted s i ∧ transfers es = 3 * instructionsEmitted s i ∧
    longDelays es = longsRequested i ∧
    ∀ tByte : Nat, minDuration tByte es =
      instructionsEmitted s i * (3 * tByte + Config.tStd) + longsRequested i * Config.tLong

/-- R193, R205, R176: after an INIT the host may issue any legal commands in any order and number; the run ends, with
every command consumed, no fault and `err` as it was (transport and delays answering, R192, log entry 10). -/
def Obligations.LegalRunsEnd : Prop :=
  ∀ s : State, s.initDone = true → (∀ c, Word.cmd14 c ∈ s.cmds → legalWord c = true) →
    ∃ t : State, Host.Core.run core s.cmds.length s = .next t ∧ Ended t = true ∧ Faulted t = s.err ∧ t.initDone = true

/-- R60: the status outputs show `iset` (Basic = 0, Extended = 1), `{attr_d, attr_u, attr_b}` and `err`. -/
def Obligations.OutputsShowState : Prop :=
  ∀ s : State, (stIset s = 0 ↔ s.iset = .basic) ∧ (stIset s = 1 ↔ s.iset = .extended) ∧
    (stAttr s).getLsbD 2 = s.attrD ∧ (stAttr s).getLsbD 1 = s.attrU ∧ (stAttr s).getLsbD 0 = s.attrB ∧
    (stErr s = 1 ↔ s.err = true)

/-- R151, R155, R157 (host software, log entry 18): every word that the two emitters make is the word of a well-formed
command. -/
def Obligations.EmitterWordsAreLegal : Prop :=
  (∀ (origin : HwCounterOrigin) (blank : Byte) (text : List Byte) (length row column : Nat) (ws : List Word),
      writeHalfWidth origin blank text length row column = some ws →
        ∀ w ∈ ws, ∃ i, i.isCommand = true ∧ i.wf = true ∧ w = cmdWord i) ∧
    ∀ (glyphs : List (BitVec 16)) (length row column : Nat) (ws : List Word),
      writeFullWidth glyphs length row column = some ws →
        ∀ w ∈ ws, ∃ i, i.isCommand = true ∧ i.wf = true ∧ w = cmdWord i

/-- R157, R158 (host software, log entry 18): the number of SETPOS words of a full-width run is one more than the number
of quadrant boundaries that lie inside it. It says how many there are, not where they stand. -/
def Obligations.FullWidthRepositions : Prop :=
  ∀ (glyphs : List (BitVec 16)) (length row column : Nat) (ws : List Word), 0 < length →
    writeFullWidth glyphs length row column = some ws →
    setposCount ws = 1 + ((row * 8 + column + length - 1) / 8 - (row * 8 + column) / 8)

/-- R49, R122 with the ghost rules of log entries 4 and 5 (the model's reading): where the mirror holds, and under
`W_write` (log entry 22) and `W_distinct`, repeating a SETATTR, a SETADDR or a SETPOS leaves the controller and the
block as they are and costs one more instruction. -/
def Obligations.RepeatLeavesController : Prop :=
  ∀ s : State, s.initDone = true → TrackerMirrors s → s.opc.wWrite = true → s.opc.WDistinct →
    (∀ (w : BitVec 2) (v : Bool), w ≠ 3 → ∃ t : State, exec (.setattr w v) s = .next t ∧
      exec (.setattr w v) t = .next { t with
        events := t.events ++ frameFields (dispWord t.opc t.attrD t.attrU t.attrB), freeCount := t.freeCount + 1 }) ∧
    (∀ a : BitVec 6, ∃ t : State, exec (.setaddr a) s = .next t ∧
      exec (.setaddr a) t = .next { t with
        events := t.events ++ frameFields (setddramWord t.opc a), freeCount := t.freeCount + 1 }) ∧
    ∀ p : BitVec 5, ∃ t : State, exec (.setpos p) s = .next t ∧
      exec (.setpos p) t = .next { t with
        events := t.events ++ frameFields (setddramWord t.opc (toDdram p)), freeCount := t.freeCount + 1 }
end

