-- ==== Sys2Proof/Laws/PerInstr.lean ====
section
/-! SUPPORT. Statements made of every instruction as syntax, one lemma per constructor. -/

namespace Sys2Proof.Laws

/-- The row of R63 that a command's word has to select; an emitted instruction has none. -/
def rowOf : Instr → Option CmdRow
  | .send _ => cmdRows[0]?
  | .select _ => cmdRows[1]?
  | .setattr _ _ => cmdRows[2]?
  | .setpos _ => cmdRows[3]?
  | .setaddr _ => cmdRows[4]?
  | .wrdata _ => cmdRows[5]?
  | .clear => cmdRows[6]?
  | .init => cmdRows[7]?
  | .funcsetB | .funcsetE | .dispctrl _ _ _ | .clrdisp | .entryR | .setddram _ | .write _ => none

/-- The instruction's encoding lies in its row of the table: a command's word selects its row of R63, an emitted
instruction's value is in its value set of R67, under every instance of OPC. -/
def RowFit.Statement (i : Instr) : Prop :=
  ∀ o : Opc, match encode o i, rowOf i with
    | .cmd14 c, some r => r.selects c = true
    | .st7920 I, none => ∃ n : OpName, o.has n I = true
    | _, _ => False

namespace RowFit

theorem send (I : Ins10) : Statement (.send I) := by
  intro o
  show CmdRow.selects _ _ = true
  simp only [CmdRow.selects, beq_iff_eq]
  ext k hk
  simp only [BitVec.getElem_and, BitVec.getElem_append]
  interval_cases k <;> simp
theorem select (t : InstrSet) : Statement (.select t) := by intro o; cases t <;> (show CmdRow.selects _ _ = true; decide)
theorem setattr (w : BitVec 2) (v : Bool) : Statement (.setattr w v) := by
  intro o; revert w; cases v <;> (show ∀ w : BitVec 2, CmdRow.selects _ _ = true; decide)
theorem setpos (p : BitVec 5) : Statement (.setpos p) := by
  intro o; revert p; show ∀ p : BitVec 5, CmdRow.selects _ _ = true; decide
theorem setaddr (a : BitVec 6) : Statement (.setaddr a) := by
  intro o; revert a; show ∀ a : BitVec 6, CmdRow.selects _ _ = true; decide
theorem wrdata (b : Byte) : Statement (.wrdata b) := by
  intro o
  show CmdRow.selects _ _ = true
  simp only [CmdRow.selects, beq_iff_eq]
  ext k hk
  simp only [BitVec.getElem_and, BitVec.getElem_append]
  interval_cases k <;> simp
theorem clear : Statement .clear := by intro o; show CmdRow.selects _ _ = true; decide
theorem init : Statement .init := by intro o; show CmdRow.selects _ _ = true; decide
theorem funcsetB : Statement .funcsetB := fun o => ⟨.funcsetB, by simp [Opc.has, funcsetWord]⟩
theorem funcsetE : Statement .funcsetE := fun o => ⟨.funcsetE, by simp [Opc.has, funcsetWord]⟩
theorem dispctrl (d u b : Bool) : Statement (.dispctrl d u b) := fun o => ⟨.dispctrl, by
  simp only [Opc.has, dispWord, beq_iff_eq]
  ext k hk
  simp only [BitVec.getElem_or, BitVec.getElem_and]
  cases o.dispBase[k] <;> cases d <;> cases u <;> cases b <;> simp [bit10] <;> interval_cases k <;> simp⟩
theorem clrdisp : Statement .clrdisp := fun o => ⟨.clrdisp, by simp [Opc.has]⟩
theorem entryR : Statement .entryR := fun o => ⟨.entryR, by simp [Opc.has]⟩
theorem setddram (a : BitVec 6) : Statement (.setddram a) := fun o => ⟨.setddram, by
  simp only [Opc.has, setddramWord, beq_iff_eq]
  ext k hk
  simp only [BitVec.getElem_or, BitVec.getElem_and, BitVec.getElem_setWidth]
  cases o.setaddrBase[k] <;> interval_cases k <;> simp⟩
theorem write (b : Byte) : Statement (.write b) := fun o => ⟨.write, by
  simp only [Opc.has, writeWord, beq_iff_eq]
  ext k hk
  simp only [BitVec.getElem_or, BitVec.getElem_and, BitVec.getElem_setWidth]
  cases o.wrdataBase[k] <;> interval_cases k <;> simp⟩

end RowFit

end Sys2Proof.Laws
end

