-- ==== Sys2Proof/Laws/Decode.lean ====
section
/-! SUPPORT. What decoding an instruction under OPC can answer, said once, and that OPC_DS keeps its value sets apart. -/

namespace Sys2Proof


/-- A named value is the encoding of its name; a value with no name is the plain SEND of it (R68 to R72, R93). -/
theorem decode10_cases (o : Opc) (I : Ins10) :
    decode10 o I = .send I ∨ ((decode10 o I).isCommand = false ∧ encode o (decode10 o I) = .st7920 I) := by
  unfold decode10
  split
  · rename_i h; right; simp [Opc.has] at h; simp [Instr.isCommand, encode, funcsetWord, h]
  split
  · rename_i h; right; simp [Opc.has] at h; simp [Instr.isCommand, encode, funcsetWord, h]
  split
  · rename_i h
    refine .inr ⟨rfl, ?_⟩
    simp only [Opc.has, beq_iff_eq] at h
    simp only [encode, dispWord, Word.st7920.injEq]
    generalize o.dispBase = b at *
    conv_rhs => rw [← h]
    ext k hk
    simp only [BitVec.getElem_or, BitVec.getElem_and, operandBits, bit10]
    by_cases hb : b[k] = true
    · simp [hb]
    · have hb' : b[k] = false := by simpa using hb
      interval_cases k <;> simp [← BitVec.getLsbD_eq_getElem] at hb' ⊢ <;> simp [BitVec.getLsbD] at * <;> simp [*]
  split
  · rename_i h; right; simp [Opc.has] at h; simp [Instr.isCommand, encode, h]
  split
  · rename_i h; right; simp [Opc.has] at h; simp [Instr.isCommand, encode, h]
  split
  · rename_i h
    refine .inr ⟨rfl, ?_⟩
    simp only [Opc.has, beq_iff_eq] at h
    simp only [encode, setddramWord, Word.st7920.injEq]
    generalize o.setaddrBase = b at *
    conv_rhs => rw [← h]
    ext k hk
    simp only [BitVec.getElem_or, BitVec.getElem_and, operandBits, BitVec.getElem_setWidth]
    by_cases hb : b[k] = true
    · simp [hb]
    · have hb' : b[k] = false := by simpa using hb
      interval_cases k <;> simp [BitVec.getLsbD_eq_getElem, hb']
  split
  · rename_i h
    refine .inr ⟨rfl, ?_⟩
    simp only [Opc.has, beq_iff_eq] at h
    simp only [encode, writeWord, Word.st7920.injEq]
    generalize o.wrdataBase = b at *
    conv_rhs => rw [← h]
    ext k hk
    simp only [BitVec.getElem_or, BitVec.getElem_and, operandBits, BitVec.getElem_setWidth]
    by_cases hb : b[k] = true
    · simp [hb]
    · have hb' : b[k] = false := by simpa using hb
      interval_cases k <;> simp [BitVec.getLsbD_eq_getElem, hb']
  · exact .inl rfl

/-- Under `W_write` (R67) every instruction the block builds has RW = 0. -/
theorem wWrite_rw {o : Opc} (h : o.wWrite = true) :
    (∀ t, (funcsetWord o t).getLsbD 8 = false) ∧ (∀ d u b, (dispWord o d u b).getLsbD 8 = false) ∧
      o.clear.getLsbD 8 = false ∧ o.entryRight.getLsbD 8 = false ∧ (∀ a, (setddramWord o a).getLsbD 8 = false) ∧
      ∀ b, (writeWord o b).getLsbD 8 = false := by
  simp only [Opc.wWrite, Bool.and_eq_true, Bool.not_eq_true'] at h
  obtain ⟨⟨⟨⟨⟨⟨hB, hE⟩, hD⟩, hC⟩, hR⟩, hA⟩, hW⟩ := h
  refine ⟨fun t => by cases t <;> assumption, fun d u b => ?_, hC, hR, fun a => ?_, fun b => ?_⟩
  · cases d <;> cases u <;> cases b <;> simpa [dispWord, bit10] using hD
  · simpa [setddramWord] using hA
  · simpa [writeWord] using hW

/-- OPC_DS meets `W_distinct` (R67). -/
theorem ds_distinct : Opc.ds.WDistinct := by
  intro m n
  cases m <;> cases n <;> first | (intros; rfl) | decide +kernel

end Sys2Proof
end

