-- ==== Sys2Proof/Laws/State.lean ====
section
/-! SUPPORT. What each update of State does to each field: one lemma per field per update. -/

namespace Sys2Proof.Machine

variable (s : State)

@[simp] theorem State.setIset_iset (t : InstrSet) : (s.setIset t).iset = t := rfl
@[simp] theorem State.setIset_attrD (t : InstrSet) : (s.setIset t).attrD = s.attrD := rfl
@[simp] theorem State.setIset_attrU (t : InstrSet) : (s.setIset t).attrU = s.attrU := rfl
@[simp] theorem State.setIset_attrB (t : InstrSet) : (s.setIset t).attrB = s.attrB := rfl
@[simp] theorem State.setIset_err (t : InstrSet) : (s.setIset t).err = s.err := rfl
@[simp] theorem State.setIset_initDone (t : InstrSet) : (s.setIset t).initDone = s.initDone := rfl
@[simp] theorem State.setIset_events (t : InstrSet) : (s.setIset t).events = s.events := rfl
@[simp] theorem State.setIset_cmds (t : InstrSet) : (s.setIset t).cmds = s.cmds := rfl
@[simp] theorem State.setIset_opc (t : InstrSet) : (s.setIset t).opc = s.opc := rfl
@[simp] theorem State.setIset_ctl (t : InstrSet) : (s.setIset t).ctl = s.ctl := rfl
@[simp] theorem State.setIset_freeCount (t : InstrSet) : (s.setIset t).freeCount = s.freeCount := rfl

@[simp] theorem State.setAttrD_iset (v : Bool) : (s.setAttrD v).iset = s.iset := rfl
@[simp] theorem State.setAttrD_attrD (v : Bool) : (s.setAttrD v).attrD = v := rfl
@[simp] theorem State.setAttrD_attrU (v : Bool) : (s.setAttrD v).attrU = s.attrU := rfl
@[simp] theorem State.setAttrD_attrB (v : Bool) : (s.setAttrD v).attrB = s.attrB := rfl
@[simp] theorem State.setAttrD_err (v : Bool) : (s.setAttrD v).err = s.err := rfl
@[simp] theorem State.setAttrD_initDone (v : Bool) : (s.setAttrD v).initDone = s.initDone := rfl
@[simp] theorem State.setAttrD_events (v : Bool) : (s.setAttrD v).events = s.events := rfl
@[simp] theorem State.setAttrD_cmds (v : Bool) : (s.setAttrD v).cmds = s.cmds := rfl
@[simp] theorem State.setAttrD_opc (v : Bool) : (s.setAttrD v).opc = s.opc := rfl
@[simp] theorem State.setAttrD_ctl (v : Bool) : (s.setAttrD v).ctl = s.ctl := rfl
@[simp] theorem State.setAttrD_freeCount (v : Bool) : (s.setAttrD v).freeCount = s.freeCount := rfl

@[simp] theorem State.setAttrU_iset (v : Bool) : (s.setAttrU v).iset = s.iset := rfl
@[simp] theorem State.setAttrU_attrD (v : Bool) : (s.setAttrU v).attrD = s.attrD := rfl
@[simp] theorem State.setAttrU_attrU (v : Bool) : (s.setAttrU v).attrU = v := rfl
@[simp] theorem State.setAttrU_attrB (v : Bool) : (s.setAttrU v).attrB = s.attrB := rfl
@[simp] theorem State.setAttrU_err (v : Bool) : (s.setAttrU v).err = s.err := rfl
@[simp] theorem State.setAttrU_initDone (v : Bool) : (s.setAttrU v).initDone = s.initDone := rfl
@[simp] theorem State.setAttrU_events (v : Bool) : (s.setAttrU v).events = s.events := rfl
@[simp] theorem State.setAttrU_cmds (v : Bool) : (s.setAttrU v).cmds = s.cmds := rfl
@[simp] theorem State.setAttrU_opc (v : Bool) : (s.setAttrU v).opc = s.opc := rfl
@[simp] theorem State.setAttrU_ctl (v : Bool) : (s.setAttrU v).ctl = s.ctl := rfl
@[simp] theorem State.setAttrU_freeCount (v : Bool) : (s.setAttrU v).freeCount = s.freeCount := rfl

@[simp] theorem State.setAttrB_iset (v : Bool) : (s.setAttrB v).iset = s.iset := rfl
@[simp] theorem State.setAttrB_attrD (v : Bool) : (s.setAttrB v).attrD = s.attrD := rfl
@[simp] theorem State.setAttrB_attrU (v : Bool) : (s.setAttrB v).attrU = s.attrU := rfl
@[simp] theorem State.setAttrB_attrB (v : Bool) : (s.setAttrB v).attrB = v := rfl
@[simp] theorem State.setAttrB_err (v : Bool) : (s.setAttrB v).err = s.err := rfl
@[simp] theorem State.setAttrB_initDone (v : Bool) : (s.setAttrB v).initDone = s.initDone := rfl
@[simp] theorem State.setAttrB_events (v : Bool) : (s.setAttrB v).events = s.events := rfl
@[simp] theorem State.setAttrB_cmds (v : Bool) : (s.setAttrB v).cmds = s.cmds := rfl
@[simp] theorem State.setAttrB_opc (v : Bool) : (s.setAttrB v).opc = s.opc := rfl
@[simp] theorem State.setAttrB_ctl (v : Bool) : (s.setAttrB v).ctl = s.ctl := rfl
@[simp] theorem State.setAttrB_freeCount (v : Bool) : (s.setAttrB v).freeCount = s.freeCount := rfl

@[simp] theorem State.setErr_iset (v : Bool) : (s.setErr v).iset = s.iset := rfl
@[simp] theorem State.setErr_attrD (v : Bool) : (s.setErr v).attrD = s.attrD := rfl
@[simp] theorem State.setErr_attrU (v : Bool) : (s.setErr v).attrU = s.attrU := rfl
@[simp] theorem State.setErr_attrB (v : Bool) : (s.setErr v).attrB = s.attrB := rfl
@[simp] theorem State.setErr_err (v : Bool) : (s.setErr v).err = v := rfl
@[simp] theorem State.setErr_initDone (v : Bool) : (s.setErr v).initDone = s.initDone := rfl
@[simp] theorem State.setErr_events (v : Bool) : (s.setErr v).events = s.events := rfl
@[simp] theorem State.setErr_cmds (v : Bool) : (s.setErr v).cmds = s.cmds := rfl
@[simp] theorem State.setErr_opc (v : Bool) : (s.setErr v).opc = s.opc := rfl
@[simp] theorem State.setErr_ctl (v : Bool) : (s.setErr v).ctl = s.ctl := rfl
@[simp] theorem State.setErr_freeCount (v : Bool) : (s.setErr v).freeCount = s.freeCount := rfl

@[simp] theorem State.setInitDone_iset (v : Bool) : (s.setInitDone v).iset = s.iset := rfl
@[simp] theorem State.setInitDone_attrD (v : Bool) : (s.setInitDone v).attrD = s.attrD := rfl
@[simp] theorem State.setInitDone_attrU (v : Bool) : (s.setInitDone v).attrU = s.attrU := rfl
@[simp] theorem State.setInitDone_attrB (v : Bool) : (s.setInitDone v).attrB = s.attrB := rfl
@[simp] theorem State.setInitDone_err (v : Bool) : (s.setInitDone v).err = s.err := rfl
@[simp] theorem State.setInitDone_initDone (v : Bool) : (s.setInitDone v).initDone = v := rfl
@[simp] theorem State.setInitDone_events (v : Bool) : (s.setInitDone v).events = s.events := rfl
@[simp] theorem State.setInitDone_cmds (v : Bool) : (s.setInitDone v).cmds = s.cmds := rfl
@[simp] theorem State.setInitDone_opc (v : Bool) : (s.setInitDone v).opc = s.opc := rfl
@[simp] theorem State.setInitDone_ctl (v : Bool) : (s.setInitDone v).ctl = s.ctl := rfl
@[simp] theorem State.setInitDone_freeCount (v : Bool) : (s.setInitDone v).freeCount = s.freeCount := rfl

@[simp] theorem State.emit_iset (e : Event) : (s.emit e).iset = s.iset := rfl
@[simp] theorem State.emit_attrD (e : Event) : (s.emit e).attrD = s.attrD := rfl
@[simp] theorem State.emit_attrU (e : Event) : (s.emit e).attrU = s.attrU := rfl
@[simp] theorem State.emit_attrB (e : Event) : (s.emit e).attrB = s.attrB := rfl
@[simp] theorem State.emit_err (e : Event) : (s.emit e).err = s.err := rfl
@[simp] theorem State.emit_initDone (e : Event) : (s.emit e).initDone = s.initDone := rfl
@[simp] theorem State.emit_events (e : Event) : (s.emit e).events = s.events ++ [e] := rfl
@[simp] theorem State.emit_cmds (e : Event) : (s.emit e).cmds = s.cmds := rfl
@[simp] theorem State.emit_opc (e : Event) : (s.emit e).opc = s.opc := rfl
@[simp] theorem State.emit_ctl (e : Event) : (s.emit e).ctl = s.ctl := rfl
@[simp] theorem State.emit_freeCount (e : Event) : (s.emit e).freeCount = s.freeCount := rfl

@[simp] theorem State.setCmds_iset (ws : List Word) : (s.setCmds ws).iset = s.iset := rfl
@[simp] theorem State.setCmds_attrD (ws : List Word) : (s.setCmds ws).attrD = s.attrD := rfl
@[simp] theorem State.setCmds_attrU (ws : List Word) : (s.setCmds ws).attrU = s.attrU := rfl
@[simp] theorem State.setCmds_attrB (ws : List Word) : (s.setCmds ws).attrB = s.attrB := rfl
@[simp] theorem State.setCmds_err (ws : List Word) : (s.setCmds ws).err = s.err := rfl
@[simp] theorem State.setCmds_initDone (ws : List Word) : (s.setCmds ws).initDone = s.initDone := rfl
@[simp] theorem State.setCmds_events (ws : List Word) : (s.setCmds ws).events = s.events := rfl
@[simp] theorem State.setCmds_cmds (ws : List Word) : (s.setCmds ws).cmds = ws := rfl
@[simp] theorem State.setCmds_opc (ws : List Word) : (s.setCmds ws).opc = s.opc := rfl
@[simp] theorem State.setCmds_ctl (ws : List Word) : (s.setCmds ws).ctl = s.ctl := rfl
@[simp] theorem State.setCmds_freeCount (ws : List Word) : (s.setCmds ws).freeCount = s.freeCount := rfl

@[simp] theorem State.setOpc_iset (o : Opc) : (s.setOpc o).iset = s.iset := rfl
@[simp] theorem State.setOpc_attrD (o : Opc) : (s.setOpc o).attrD = s.attrD := rfl
@[simp] theorem State.setOpc_attrU (o : Opc) : (s.setOpc o).attrU = s.attrU := rfl
@[simp] theorem State.setOpc_attrB (o : Opc) : (s.setOpc o).attrB = s.attrB := rfl
@[simp] theorem State.setOpc_err (o : Opc) : (s.setOpc o).err = s.err := rfl
@[simp] theorem State.setOpc_initDone (o : Opc) : (s.setOpc o).initDone = s.initDone := rfl
@[simp] theorem State.setOpc_events (o : Opc) : (s.setOpc o).events = s.events := rfl
@[simp] theorem State.setOpc_cmds (o : Opc) : (s.setOpc o).cmds = s.cmds := rfl
@[simp] theorem State.setOpc_opc (o : Opc) : (s.setOpc o).opc = o := rfl
@[simp] theorem State.setOpc_ctl (o : Opc) : (s.setOpc o).ctl = s.ctl := rfl
@[simp] theorem State.setOpc_freeCount (o : Opc) : (s.setOpc o).freeCount = s.freeCount := rfl

@[simp] theorem State.setCtl_iset (c : Controller) : (s.setCtl c).iset = s.iset := rfl
@[simp] theorem State.setCtl_attrD (c : Controller) : (s.setCtl c).attrD = s.attrD := rfl
@[simp] theorem State.setCtl_attrU (c : Controller) : (s.setCtl c).attrU = s.attrU := rfl
@[simp] theorem State.setCtl_attrB (c : Controller) : (s.setCtl c).attrB = s.attrB := rfl
@[simp] theorem State.setCtl_err (c : Controller) : (s.setCtl c).err = s.err := rfl
@[simp] theorem State.setCtl_initDone (c : Controller) : (s.setCtl c).initDone = s.initDone := rfl
@[simp] theorem State.setCtl_events (c : Controller) : (s.setCtl c).events = s.events := rfl
@[simp] theorem State.setCtl_cmds (c : Controller) : (s.setCtl c).cmds = s.cmds := rfl
@[simp] theorem State.setCtl_opc (c : Controller) : (s.setCtl c).opc = s.opc := rfl
@[simp] theorem State.setCtl_ctl (c : Controller) : (s.setCtl c).ctl = c := rfl
@[simp] theorem State.setCtl_freeCount (c : Controller) : (s.setCtl c).freeCount = s.freeCount := rfl

@[simp] theorem State.setFreeCount_iset (n : Nat) : (s.setFreeCount n).iset = s.iset := rfl
@[simp] theorem State.setFreeCount_attrD (n : Nat) : (s.setFreeCount n).attrD = s.attrD := rfl
@[simp] theorem State.setFreeCount_attrU (n : Nat) : (s.setFreeCount n).attrU = s.attrU := rfl
@[simp] theorem State.setFreeCount_attrB (n : Nat) : (s.setFreeCount n).attrB = s.attrB := rfl
@[simp] theorem State.setFreeCount_err (n : Nat) : (s.setFreeCount n).err = s.err := rfl
@[simp] theorem State.setFreeCount_initDone (n : Nat) : (s.setFreeCount n).initDone = s.initDone := rfl
@[simp] theorem State.setFreeCount_events (n : Nat) : (s.setFreeCount n).events = s.events := rfl
@[simp] theorem State.setFreeCount_cmds (n : Nat) : (s.setFreeCount n).cmds = s.cmds := rfl
@[simp] theorem State.setFreeCount_opc (n : Nat) : (s.setFreeCount n).opc = s.opc := rfl
@[simp] theorem State.setFreeCount_ctl (n : Nat) : (s.setFreeCount n).ctl = s.ctl := rfl
@[simp] theorem State.setFreeCount_freeCount (n : Nat) : (s.setFreeCount n).freeCount = n := rfl

end Sys2Proof.Machine
end

