-- ==== Sys2Proof/Laws/Ops.lean ====
section
/-! SUPPORT. What each shared operation does, said once: an equation with every field it writes, or the cases it answers. -/

namespace Sys2Proof.Machine

/-- The codec's send, in one equation: the four events, the ghost state, and nothing else (R90, R96). -/
theorem sendIns_eq (I : Ins10) (s : State) :
    sendIns I s = { s with
      events := s.events ++ insEvents I
      ctl := controllerReceives s.opc I s.freeCount s.ctl
      freeCount := s.freeCount + 1 } := by
  simp [sendIns, deliver, insEvents, State.emit, State.setCtl, State.setFreeCount]

@[simp] theorem sendIns_iset (I : Ins10) (s : State) : (sendIns I s).iset = s.iset := by rw [sendIns_eq]
@[simp] theorem sendIns_attrD (I : Ins10) (s : State) : (sendIns I s).attrD = s.attrD := by rw [sendIns_eq]
@[simp] theorem sendIns_attrU (I : Ins10) (s : State) : (sendIns I s).attrU = s.attrU := by rw [sendIns_eq]
@[simp] theorem sendIns_attrB (I : Ins10) (s : State) : (sendIns I s).attrB = s.attrB := by rw [sendIns_eq]
@[simp] theorem sendIns_err (I : Ins10) (s : State) : (sendIns I s).err = s.err := by rw [sendIns_eq]
@[simp] theorem sendIns_initDone (I : Ins10) (s : State) : (sendIns I s).initDone = s.initDone := by rw [sendIns_eq]
@[simp] theorem sendIns_cmds (I : Ins10) (s : State) : (sendIns I s).cmds = s.cmds := by rw [sendIns_eq]
@[simp] theorem sendIns_opc (I : Ins10) (s : State) : (sendIns I s).opc = s.opc := by rw [sendIns_eq]
@[simp] theorem sendIns_freeCount (I : Ins10) (s : State) : (sendIns I s).freeCount = s.freeCount + 1 := by
  rw [sendIns_eq]
@[simp] theorem sendIns_events (I : Ins10) (s : State) : (sendIns I s).events = s.events ++ insEvents I := by
  rw [sendIns_eq]
@[simp] theorem sendIns_ctl (I : Ins10) (s : State) :
    (sendIns I s).ctl = controllerReceives s.opc I s.freeCount s.ctl := by rw [sendIns_eq]

/-- With RW = 1 nothing is said of the controller (U5, R95). -/
theorem controllerReceives_read {I : Ins10} (h : I.getLsbD 8 = true) (o : Opc) (n : Nat) (c : Controller) :
    controllerReceives o I n c = freeController n := by simp only [controllerReceives, h]; rfl

/-- A function set selects its set and leaves the settings (R28). -/
theorem controllerReceives_funcset {o : Opc} {I : Ins10} (h : I.getLsbD 8 = false) (n : Nat) (c : Controller) :
    (decode10 o I = .funcsetB → controllerReceives o I n c = ⟨.basic, c.cattr, Config.freeAddr n⟩) ∧
      (decode10 o I = .funcsetE → controllerReceives o I n c = ⟨.extended, c.cattr, Config.freeAddr n⟩) :=
  ⟨fun e => by simp only [controllerReceives, h, e]; rfl, fun e => by simp only [controllerReceives, h, e]; rfl⟩

/-- Display control in the Basic set replaces the settings and leaves the rest (R28, R49). -/
theorem controllerReceives_dispctrl {o : Opc} {I : Ins10} {d u b : Bool} {c : Controller} (h : I.getLsbD 8 = false)
    (e : decode10 o I = .dispctrl d u b) (hc : c.cset = .basic) (n : Nat) :
    controllerReceives o I n c = { c with cattr := ⟨d, u, b⟩ } := by simp only [controllerReceives, h, e, hc]; rfl

/-- Set-address in the Basic set loads the address counter and leaves the rest (R28). -/
theorem controllerReceives_setddram {o : Opc} {I : Ins10} {a : BitVec 6} {c : Controller} (h : I.getLsbD 8 = false)
    (e : decode10 o I = .setddram a) (hc : c.cset = .basic) (n : Nat) :
    controllerReceives o I n c = { c with cac := a } := by simp only [controllerReceives, h, e, hc]; rfl

/-- Clear display, entry mode and a data write leave the selected set and the settings (R28). -/
theorem controllerReceives_keeps {o : Opc} {I : Ins10} (h : I.getLsbD 8 = false) (n : Nat) (c : Controller)
    (e : decode10 o I = .clrdisp ∨ decode10 o I = .entryR ∨ ∃ b, decode10 o I = .write b) :
    controllerReceives o I n c = { c with cac := Config.freeAddr n } := by
  rcases e with e | e | ⟨b, e⟩ <;> simp only [controllerReceives, h, e] <;> rfl

/-- The long settle, in one equation. -/
theorem longSettle_eq (s : State) : longSettle s = { s with events := s.events ++ [.dly .long] } := rfl

/-- If an operation followed by another answers a next state, then both did. -/
theorem andThen_next {a : Answer} {f : State → Answer} {t : State} (h : andThen a f = .next t) :
    ∃ s, a = .next s ∧ f s = .next t := by
  cases a with
  | next s => exact ⟨s, rfl, h⟩
  | fault r => cases h
  | refused r => cases h

@[simp] theorem andThen_next_eq (s : State) (f : State → Answer) : andThen (.next s) f = f s := rfl
@[simp] theorem andThen_fault_eq (r : Fault) (f : State → Answer) : andThen (.fault r) f = .fault r := rfl
@[simp] theorem andThen_refused_eq (r : Refusal) (f : State → Answer) : andThen (.refused r) f = .refused r := rfl

/-- SELECT before the first INIT is the model fault (R175). -/
theorem selectSet_uninitialised (t : InstrSet) {s : State} (h : s.initDone = false) :
    selectSet t s = .fault .uninitialisedISet := by simp [selectSet, h]

/-- SELECT of the recorded set does nothing (R100, R101). -/
theorem selectSet_same {t : InstrSet} {s : State} (h : s.initDone = true) (ht : s.iset = t) :
    selectSet t s = .next s := by simp [selectSet, h, ht]

/-- SELECT of the other set sends its function set and records it (R100). -/
theorem selectSet_other {t : InstrSet} {s : State} (h : s.initDone = true) (ht : s.iset ≠ t) :
    selectSet t s = .next ((sendIns (funcsetWord s.opc t) s).setIset t) := by simp [selectSet, h, ht]

/-- Everything SELECT can answer. -/
theorem selectSet_cases (t : InstrSet) (s : State) :
    (s.initDone = false ∧ selectSet t s = .fault .uninitialisedISet) ∨
      (s.initDone = true ∧ s.iset = t ∧ selectSet t s = .next s) ∨
      (s.initDone = true ∧ s.iset ≠ t ∧ selectSet t s = .next ((sendIns (funcsetWord s.opc t) s).setIset t)) := by
  cases h : s.initDone with
  | false => exact .inl ⟨rfl, selectSet_uninitialised t h⟩
  | true =>
    by_cases ht : s.iset = t
    · exact .inr (.inl ⟨rfl, ht, selectSet_same h ht⟩)
    · exact .inr (.inr ⟨rfl, ht, selectSet_other h ht⟩)

/-- Everything a send in the Basic set can answer (R104). -/
theorem sendInBasic_cases (I : State → Ins10) (s : State) :
    (s.initDone = false ∧ sendInBasic I s = .fault .uninitialisedISet) ∨
      (s.initDone = true ∧ s.iset = .basic ∧ sendInBasic I s = .next (sendIns (I s) s)) ∨
      (s.initDone = true ∧ s.iset = .extended ∧
        sendInBasic I s =
          .next (sendIns (I ((sendIns (funcsetWord s.opc .basic) s).setIset .basic))
            ((sendIns (funcsetWord s.opc .basic) s).setIset .basic))) := by
  rcases selectSet_cases .basic s with ⟨h, e⟩ | ⟨h, ht, e⟩ | ⟨h, ht, e⟩
  · exact .inl ⟨h, by simp [sendInBasic, e]⟩
  · exact .inr (.inl ⟨h, ht, by simp [sendInBasic, e]⟩)
  · refine .inr (.inr ⟨h, ?_, by simp [sendInBasic, e]⟩)
    cases hs : s.iset with
    | basic => exact absurd hs ht
    | extended => rfl

/-- Accepting a command takes the first of the host's list and changes nothing else. -/
theorem acceptCommand_cases (s : State) :
    (s.cmds = [] ∧ acceptCommand s = none) ∨
      ∃ w rest, s.cmds = w :: rest ∧ acceptCommand s = some (w, s.setCmds rest) := by
  cases h : s.cmds with
  | nil => exact .inl ⟨rfl, by simp [acceptCommand, h]⟩
  | cons w rest => exact .inr ⟨w, rest, rfl, by simp [acceptCommand, h]⟩

/-- IllegalCommand sets the flag and nothing else (R171). -/
theorem raiseIllegalCommand_eq (s : State) : raiseIllegalCommand s = { s with err := true } := rfl

/-- Writing one attribute changes nothing but the attributes (R22). -/
theorem writeAttr_cases (w : BitVec 2) (v : Bool) (s : State) :
    (w = 0 ∧ writeAttr w v s = s.setAttrD v) ∨ (w = 1 ∧ writeAttr w v s = s.setAttrU v) ∨
      (w = 2 ∧ writeAttr w v s = s.setAttrB v) ∨ (w = 3 ∧ writeAttr w v s = s) := by
  have hw : w = 0 ∨ w = 1 ∨ w = 2 ∨ w = 3 := by revert w; decide
  rcases hw with rfl | rfl | rfl | rfl <;> simp [writeAttr]

end Sys2Proof.Machine
end

