-- ==== Sys2Proof/Laws/Exec.lean ====
section
/-! SUPPORT. Everything an instruction that answers a next state can have done, said once. -/

namespace Sys2Proof.Machine

/-- After SELECT(Basic) the record is Basic and everything but the events and the ghost state is as it was. -/
theorem selectBasic_next {s t : State} (h : selectSet .basic s = .next t) :
    s.initDone = true ∧ t.iset = .basic ∧ t.attrs = s.attrs ∧ t.err = s.err ∧ t.initDone = s.initDone ∧
      t.cmds = s.cmds ∧ t.opc = s.opc := by
  rcases selectSet_cases .basic s with ⟨_, e⟩ | ⟨hi, ht, e⟩ | ⟨hi, _, e⟩
  · rw [e] at h; cases h
  · rw [e] at h; cases h; exact ⟨hi, ht, rfl, rfl, rfl, rfl, rfl⟩
  · rw [e] at h; cases h; simp [hi, State.attrs]

/-- The ways an instruction reaches a next state: nothing sent, IllegalCommand, one raw send, the switch of SELECT,
a send in the Basic set after SELECT(Basic), CLEAR, INIT. -/
theorem exec_next_cases {i : Instr} {s t : State} (h : exec i s = .next t) :
    (∃ u, i = .select u ∧ s.initDone = true ∧ s.iset = u ∧ t = s) ∨
      (∃ v, i = .setattr 3 v ∧ t = raiseIllegalCommand s) ∨
      (∃ I, t = sendIns I s ∧
        (i = .send I ∨ (∃ b, i = .wrdata b ∧ I = writeWord s.opc b) ∨
          (i.isCommand = false ∧ encode s.opc i = .st7920 I))) ∨
      (∃ u, i = .select u ∧ s.initDone = true ∧ s.iset ≠ u ∧ t = (sendIns (funcsetWord s.opc u) s).setIset u) ∨
      (∃ w v r, i = .setattr w v ∧ w ≠ 3 ∧ selectSet .basic (writeAttr w v s) = .next r ∧
        t = sendIns (dispWord r.opc r.attrD r.attrU r.attrB) r) ∨
      (∃ a r, (i = .setaddr a ∨ ∃ p, i = .setpos p ∧ a = toDdram p) ∧ selectSet .basic s = .next r ∧
        t = sendIns (setddramWord r.opc a) r) ∨
      (∃ r, i = .clear ∧ selectSet .basic s = .next r ∧ t = clearDisplay r) ∨
      (i = .init ∧ t = (initEntryMode (clearDisplay (initDefaultAttrs (initForceBasic s)))).setInitDone true) := by
  cases i with
  | send I => cases h; exact .inr (.inr (.inl ⟨I, rfl, .inl rfl⟩))
  | wrdata b => cases h; exact .inr (.inr (.inl ⟨_, rfl, .inr (.inl ⟨b, rfl, rfl⟩)⟩))
  | select u =>
    simp only [exec, execSelect] at h
    rcases selectSet_cases u s with ⟨_, e⟩ | ⟨hi, hu, e⟩ | ⟨hi, hu, e⟩
    · rw [e] at h; cases h
    · rw [e] at h; cases h; exact .inl ⟨u, rfl, hi, hu, rfl⟩
    · rw [e] at h; cases h; exact .inr (.inr (.inr (.inl ⟨u, rfl, hi, hu, rfl⟩)))
  | setattr w v =>
    simp only [exec, execSetattr] at h
    split at h
    · rename_i hw; cases h; exact .inr (.inl ⟨v, by rw [hw], rfl⟩)
    · rename_i hw
      obtain ⟨r, hr, e⟩ := andThen_next h
      cases e
      exact .inr (.inr (.inr (.inr (.inl ⟨w, v, r, rfl, hw, hr, rfl⟩))))
  | setpos p =>
    obtain ⟨r, hr, e⟩ := andThen_next h
    cases e
    exact .inr (.inr (.inr (.inr (.inr (.inl ⟨_, r, .inr ⟨p, rfl, rfl⟩, hr, rfl⟩)))))
  | setaddr a =>
    obtain ⟨r, hr, e⟩ := andThen_next h
    cases e
    exact .inr (.inr (.inr (.inr (.inr (.inl ⟨a, r, .inl rfl, hr, rfl⟩)))))
  | clear =>
    obtain ⟨r, hr, e⟩ := andThen_next h
    cases e
    exact .inr (.inr (.inr (.inr (.inr (.inr (.inl ⟨r, rfl, hr, rfl⟩))))))
  | init => cases h; exact .inr (.inr (.inr (.inr (.inr (.inr (.inr ⟨rfl, rfl⟩))))))
  | funcsetB => cases h; exact .inr (.inr (.inl ⟨_, rfl, .inr (.inr ⟨rfl, rfl⟩)⟩))
  | funcsetE => cases h; exact .inr (.inr (.inl ⟨_, rfl, .inr (.inr ⟨rfl, rfl⟩)⟩))
  | dispctrl d u b => cases h; exact .inr (.inr (.inl ⟨_, rfl, .inr (.inr ⟨rfl, rfl⟩)⟩))
  | clrdisp => cases h; exact .inr (.inr (.inl ⟨_, rfl, .inr (.inr ⟨rfl, rfl⟩)⟩))
  | entryR => cases h; exact .inr (.inr (.inl ⟨_, rfl, .inr (.inr ⟨rfl, rfl⟩)⟩))
  | setddram a => cases h; exact .inr (.inr (.inl ⟨_, rfl, .inr (.inr ⟨rfl, rfl⟩)⟩))
  | write b => cases h; exact .inr (.inr (.inl ⟨_, rfl, .inr (.inr ⟨rfl, rfl⟩)⟩))

end Sys2Proof.Machine
end

