-- ==== Sys2Proof/Laws/Step.lean ====
section
/-! SUPPORT. Everything a step can do, said once. -/

namespace Sys2Proof.Machine

/-- The three cases of a step: idle, a decoded command, an illegal word. -/
theorem step_cases (s : State) :
    (s.cmds = [] ∧ step s = .next s) ∨
      (∃ w rest i, s.cmds = w :: rest ∧ decodeWord s.opc w = .ok i ∧ step s = exec i (s.setCmds rest)) ∨
      (∃ w rest c, s.cmds = w :: rest ∧ decodeWord s.opc w = .error c ∧
        step s = .next (raiseIllegalCommand (s.setCmds rest))) := by
  rcases acceptCommand_cases s with ⟨h, e⟩ | ⟨w, rest, h, e⟩
  · exact .inl ⟨h, by simp [step, e]⟩
  · cases hd : decodeWord s.opc w with
    | ok i => exact .inr (.inl ⟨w, rest, i, h, hd, by simp [step, e, hd]⟩)
    | error c => exact .inr (.inr ⟨w, rest, c, h, hd, by simp [step, e, hd]⟩)

end Sys2Proof.Machine
end

