-- ==== Sys2Proof/Laws/Stream.lean ====
section
/-! SUPPORT. Reading the event list back: how it splits over what one command appends. -/

namespace Sys2Proof.Machine

/-- Two streams of whole instructions one after the other read back as the two lists one after the other. -/
theorem readBack_append {es fs : List Event} {xs ys : List StreamItem} (h : readBack es = some xs)
    (g : readBack fs = some ys) : readBack (es ++ fs) = some (xs ++ ys) := by
  induction es using readBack.induct generalizing xs with
  | case1 => simp [readBack] at h; subst h; simpa using g
  | case2 rest ih => simp [readBack] at h; obtain ⟨a, h, rfl⟩ := h; simp [readBack, ih h]
  | case3 b1 b2 b3 rest I hI ih =>
    simp [readBack, hI] at h
    obtain ⟨a, h, rfl⟩ := h
    simp [readBack, hI, ih h]
  | case4 b1 b2 b3 rest hI => simp [readBack, hI] at h
  | case5 => simp_all [readBack]

/-- A list that by itself has no long delay out of place has none after another such list. -/
theorem longsFollowClear_append {o : Opc} {after : Bool} {xs ys : List StreamItem}
    (h : longsFollowClear o after xs = true) (g : longsFollowClear o false ys = true) :
    longsFollowClear o after (xs ++ ys) = true := by
  have start : ∀ b, longsFollowClear o b ys = true := by
    intro b
    cases ys with
    | nil => rfl
    | cons y ys =>
      cases y with
      | long => simp [longsFollowClear] at g
      | ins I => exact g
  induction xs generalizing after with
  | nil => exact start after
  | cons x xs ih =>
    cases x with
    | long => simp [longsFollowClear] at h ⊢; exact ⟨h.1, ih h.2⟩
    | ins I => simp only [longsFollowClear, List.cons_append] at h ⊢; exact ih h

end Sys2Proof.Machine
end

