-- ==== Sys2Proof/Machine/Assembler.lean ====
section
/-! DEFINITION. How the spec writes an instruction (R78): the mnemonic and its operands, numbers in decimal (R10). -/

namespace Sys2Proof.Machine

/-- The symbolic operand of SELECT (R78). -/
def asmSet : InstrSet → String
  | .basic => "BASIC"
  | .extended => "EXT"

/-- The symbolic operand of SETATTR (R78); the illegal selector has no name and is written as its number. -/
def asmSelector (w : BitVec 2) : String :=
  if w = 0 then "DISPLAY" else if w = 1 then "UNDERLINE" else if w = 2 then "BLINK" else "3"

/-- A one-bit operand as its digit. -/
def asmBit (v : Bool) : String := if v then "1" else "0"

/-- An instruction as the spec writes it (R78). -/
def asm : Instr → String
  | .send I => "SEND " ++ toString I.toNat
  | .select t => "SELECT " ++ asmSet t
  | .setattr w v => "SETATTR " ++ asmSelector w ++ ", " ++ asmBit v
  | .setpos p => "SETPOS " ++ toString p.toNat
  | .setaddr a => "SETADDR " ++ toString a.toNat
  | .wrdata b => "WRDATA " ++ toString b.toNat
  | .clear => "CLEAR"
  | .init => "INIT"
  | .funcsetB => "FUNCSET.B"
  | .funcsetE => "FUNCSET.E"
  | .dispctrl d u b => "DISPCTRL " ++ asmBit d ++ "," ++ asmBit u ++ "," ++ asmBit b
  | .clrdisp => "CLRDISP"
  | .entryR => "ENTRY.R"
  | .setddram a => "SETDDRAM " ++ toString a.toNat
  | .write b => "WRITE " ++ toString b.toNat

end Sys2Proof.Machine
end

