-- ==== Sys2Proof/Tests/Slice0.lean ====
section
/-! SUPPORT. Tests: expected results from 95_test_vectors.md, ill-formed terms refused, and one witness per statement with hypotheses. -/

namespace Sys2Proof.Tests

open Sys2Proof.Machine

/-- A state under OPC_DS written as the spec's vectors write it: `iset / attr_d attr_u attr_b / err`, after an INIT. -/
def after (t : InstrSet) (d u b : Bool) (e : Bool) : State :=
  { State.afterReset Opc.ds t ⟨t, ⟨d, u, b⟩, 0⟩ 0 with attrD := d, attrU := u, attrB := b, err := e, initDone := true }

/-- `? / 1 1 1 / 0`: after reset, before any INIT (whichever value `iset` came up with). -/
def fresh (t : InstrSet) : State := State.afterReset Opc.ds t ⟨.extended, ⟨false, false, false⟩, 5⟩ 0

/-- The spec's `b1 b2 b3 S`. -/
def F (b1 b2 b3 : Byte) : List Event := [.tx b1, .tx b2, .tx b3, .dly .std]

/-- What the vectors show of an answer: the events, `iset`, the attributes and `err`; none for a stop. -/
def shown (a : Answer) : Option (List Event × InstrSet × Attrs × Bool) :=
  match a with
  | .next s => some (s.events, s.iset, s.attrs, s.err)
  | .fault _ => none
  | .refused _ => none

/-- The answer is the model fault of R175. -/
def faulted (a : Answer) : Bool :=
  match a with
  | .next _ => false
  | .fault .uninitialisedISet => true
  | .refused _ => false

/-- The answer is a next state. -/
def goesOn (a : Answer) : Bool :=
  match a with
  | .next _ => true
  | .fault _ => false
  | .refused _ => false

-- WellFormed and the properties of OPC: an ill-formed term for each check (R64, R67)
theorem test_wf_bad_selector : (Instr.setattr 3 true).wf = false := by decide
theorem test_wf_good_selector : (Instr.setattr 2 true).wf = true := by decide
theorem test_wWrite_refuses : ({ Opc.ds with fsBasic := 0x130 } : Opc).wWrite = false := by decide
theorem test_wFs_refuses : ({ Opc.ds with fsExt := 0x030 } : Opc).wFs = false := by decide
theorem test_wDisp_refuses : ({ Opc.ds with dispBase := 0x018 } : Opc).wDisp = false := by decide
theorem test_wAddr6_refuses_doc : Opc.ds.withDoc.wAddr6 = false := by decide
theorem test_wData_refuses : ({ Opc.ds with wrdataBase := 0x300 } : Opc).wData = false := by decide
-- C1: with OPC_DOC's base, SETDDRAM 16 is FUNCSET.B
theorem test_distinct_refuses_doc : ¬ Opc.ds.withDoc.WDistinct := by
  intro h
  exact absurd (h .funcsetB .setddram 0x030 (by decide) (by decide)) (by decide)

-- V-ENC (R63, R64): every command's word, and each kind of illegal word
theorem test_decode_send : decode14 0b00001001000001 = .ok (.send 0x241) := by decide
theorem test_decode_select : decode14 0b00010000000001 = .ok (.select .extended) := by decide
theorem test_decode_setattr : decode14 0b00100000000101 = .ok (.setattr 2 true) := by decide
theorem test_decode_setpos : decode14 0b00110000011111 = .ok (.setpos 31) := by decide
theorem test_decode_setaddr : decode14 0b01000000111111 = .ok (.setaddr 63) := by decide
theorem test_decode_wrdata : decode14 0b01010011111111 = .ok (.wrdata 0xFF) := by decide
theorem test_decode_clear : decode14 0b01100000000000 = .ok .clear := by decide
theorem test_decode_init : decode14 0b01110000000000 = .ok .init := by decide
theorem test_decode_reservedBits : decode14 0x0402 = .error .reservedBits ∧ decode14 0x0808 = .error .reservedBits ∧
    decode14 0x0C20 = .error .reservedBits ∧ decode14 0x1040 = .error .reservedBits ∧
    decode14 0x1500 = .error .reservedBits ∧ decode14 0x1801 = .error .reservedBits ∧
    decode14 0x1C01 = .error .reservedBits := by decide
theorem test_decode_badSelector : decode14 0x0806 = .error .badSelector ∧ decode14 0x0807 = .error .badSelector := by decide
theorem test_decode_priority : decode14 0x080E = .error .reservedBits ∧ decode14 0x3FFF = .error .reservedOp ∧
    decode14 0x2000 = .error .reservedOp := by decide

-- R68 to R72 under OPC_DS, and what the block sends for them
theorem test_decode_funcset : decode10 Opc.ds 0b0000110000 = .funcsetB ∧ decode10 Opc.ds 0b0000110100 = .funcsetE := by decide
theorem test_decode_dispctrl : decode10 Opc.ds 0b0000001110 = .dispctrl true true false := by decide
theorem test_decode_clrdisp : decode10 Opc.ds 0b0000000001 = .clrdisp := by decide
theorem test_decode_entryR : decode10 Opc.ds 0b0000000110 = .entryR := by decide
theorem test_decode_setddram : decode10 Opc.ds 0b0010010111 = .setddram 23 := by decide
theorem test_decode_write : decode10 Opc.ds 0b1001000001 = .write 0x41 := by decide
theorem test_decode_unnamed : decode10 Opc.ds 0x155 = .send 0x155 := by decide
-- R71: OPC_DOC's alternative row of the table
theorem test_decode_setddram_doc : decode10 (Opc.withDoc { Opc.ds with fsBasic := 0x3FF }) 0b0000110000 = .setddram 16 := by
  decide
theorem test_encode : encode Opc.ds (.setaddr 63) = .cmd14 0x103F ∧ encode Opc.ds (.setattr 2 false) = .cmd14 0x0804 ∧
    encode Opc.ds (.setddram 16) = .st7920 0x090 ∧ encode Opc.ds (.dispctrl true false true) = .st7920 0x00D := by decide
theorem test_table_words : decodeTableWord 16 0x0030 = some .funcsetB ∧ decodeTableWord 16 0x0000 = some (.send 0) ∧
    decodeTableWord 14 0x0030 = some (.send 0x030) ∧ decodeTableWord 10 0x030 = some .funcsetB ∧
    decodeTableWord 16 0x1C00 = some .init ∧ decodeTableWord 16 0x0806 = none ∧ decodeTableWord 16 0x4000 = none := by
  decide
theorem test_fetch_word_runs : goesOn (step (State.reset.withFetchWord 16 0x1C00)) = true ∧
    goesOn (step (State.reset.withFetchWord 16 0x0030)) = true := by decide

-- E1, E2 (R74, R75)
theorem test_frame_1A5 : insEvents 0x1A5 = F 0xFC 0xA0 0x50 := by decide
theorem test_unframe : unframe? 0xF8 0x90 0x00 = some 0x090 ∧ unframe? 0xF0 0 0 = none ∧ unframe? 0xF9 0 0 = none ∧
    unframe? 0xF8 0x01 0 = none ∧ unframe? 0xF8 0 0x08 = none := by decide

-- V-COD (R90, R96): the function-set value by raw SEND leaves `iset`
theorem test_send_3FF : shown (exec (.send 0x3FF) (after .basic true true true false)) =
    some (F 0xFE 0xF0 0xF0, .basic, ⟨true, true, true⟩, false) := by decide
theorem test_send_034 : shown (exec (.send 0x034) (after .basic true true true false)) =
    some (F 0xF8 0x30 0x40, .basic, ⟨true, true, true⟩, false) := by decide
-- V-SEL (R100, R103)
theorem test_select_switch : shown (exec (.select .extended) (after .basic true true true false)) =
    some (F 0xF8 0x30 0x40, .extended, ⟨true, true, true⟩, false) := by decide
theorem test_select_same : shown (exec (.select .basic) (after .basic true true true false)) =
    some ([], .basic, ⟨true, true, true⟩, false) := by decide
-- V-XL (R114): the two ends of each quadrant
theorem test_toDdram : [0, 7, 8, 15, 16, 23, 24, 31].map toDdramNat =
    [some 0, some 7, some 16, some 23, some 8, some 15, some 24, some 31] ∧ toDdramNat 32 = none := by decide
-- V-ADR (R116, R117)
theorem test_setpos_8 : shown (exec (.setpos 8) (after .extended true true true false)) =
    some (F 0xF8 0x30 0x00 ++ F 0xF8 0x90 0x00, .basic, ⟨true, true, true⟩, false) := by decide
theorem test_setaddr_63 : shown (exec (.setaddr 63) (after .basic true true true false)) =
    some (F 0xF8 0xB0 0xF0, .basic, ⟨true, true, true⟩, false) := by decide
theorem test_setaddr_32_doc :
    shown (exec (.setaddr 32) { after .basic true true true false with opc := Opc.ds.withDoc }) =
      some (F 0xF8 0x20 0x00, .basic, ⟨true, true, true⟩, false) := by decide
-- V-ATT (R120, R122, R123)
theorem test_setattr_blink : shown (exec (.setattr 2 true) (after .extended true true false false)) =
    some (F 0xF8 0x30 0x00 ++ F 0xF8 0x00 0xF0, .basic, ⟨true, true, true⟩, false) := by decide
theorem test_setattr_repeat : shown (exec (.setattr 0 false) (after .basic false true true false)) =
    some (F 0xF8 0x00 0xB0, .basic, ⟨false, true, true⟩, false) := by decide
-- V-INI-3 (R130, R135)
theorem test_init : shown (exec .init (after .extended false true false true)) =
    some (F 0xF8 0x30 0x00 ++ F 0xF8 0x00 0xF0 ++ F 0xF8 0x00 0x10 ++ [.dly .long] ++ F 0xF8 0x00 0x60,
      .basic, ⟨true, true, true⟩, true) := by decide
theorem test_init_first : goesOn (exec .init State.reset) = true := by decide
-- V-CLR (R131)
theorem test_clear : shown (exec .clear (after .extended true true true false)) =
    some (F 0xF8 0x30 0x00 ++ F 0xF8 0x00 0x10 ++ [.dly .long], .basic, ⟨true, true, true⟩, false) := by decide
-- V-WRD (R132): legal before INIT
theorem test_wrdata : shown (exec (.wrdata 0x41) (fresh .extended)) =
    some (F 0xFA 0x40 0x10, .extended, ⟨true, true, true⟩, false) := by decide
-- V-ERR (R171, R173, R174): also before INIT, and after an earlier error
theorem test_illegal : shown (step { fresh .basic with cmds := [.cmd14 0x0C20] }) =
    some ([], .basic, ⟨true, true, true⟩, true) := by decide
theorem test_illegal_again : shown (step { after .basic true false true true with cmds := [.cmd14 0x0806, .cmd14 0x1C00] }) =
    some ([], .basic, ⟨true, false, true⟩, true) := by decide
-- V-SEL-5, V-ATT, V-CLR (R175)
theorem test_uninitialised : faulted (exec (.select .basic) (fresh .basic)) = true ∧
    faulted (exec (.setattr 0 true) (fresh .basic)) = true ∧ faulted (exec (.setpos 0) (fresh .basic)) = true ∧
    faulted (exec (.setaddr 0) (fresh .basic)) = true ∧ faulted (exec .clear (fresh .basic)) = true := by decide
-- the emitted instructions by themselves (R68 to R72, E1)
theorem test_funcset : shown (exec .funcsetB (after .extended true true true false)) =
    some (F 0xF8 0x30 0x00, .extended, ⟨true, true, true⟩, false) ∧
    shown (exec .funcsetE (after .basic true true true false)) =
    some (F 0xF8 0x30 0x40, .basic, ⟨true, true, true⟩, false) := by decide
theorem test_dispctrl : shown (exec (.dispctrl true false false) (after .basic true true true false)) =
    some (F 0xF8 0x00 0xC0, .basic, ⟨true, true, true⟩, false) := by decide
theorem test_clrdisp : shown (exec .clrdisp (fresh .basic)) =
    some (F 0xF8 0x00 0x10, .basic, ⟨true, true, true⟩, false) := by decide
theorem test_entryR : shown (exec .entryR (fresh .basic)) =
    some (F 0xF8 0x00 0x60, .basic, ⟨true, true, true⟩, false) := by decide
theorem test_setddram : shown (exec (.setddram 23) (fresh .basic)) =
    some (F 0xF8 0x90 0x70, .basic, ⟨true, true, true⟩, false) := by decide
theorem test_write : shown (exec (.write 0x42) (fresh .basic)) =
    some (F 0xFA 0x40 0x20, .basic, ⟨true, true, true⟩, false) := by decide

-- R49: display control leaves the address counter alone; set-address sets it
theorem test_controller_counter : controllerReceives Opc.ds 0x00E 7 ⟨.basic, ⟨true, true, true⟩, 16⟩ =
    ⟨.basic, ⟨true, true, false⟩, 16⟩ ∧
    controllerReceives Opc.ds 0x090 7 ⟨.basic, ⟨true, true, true⟩, 5⟩ = ⟨.basic, ⟨true, true, true⟩, 16⟩ := by decide
-- U5: with RW = 1 even a value that has a name tells nothing of the controller
theorem test_controller_read : controllerReceives { Opc.ds with clear := 0x101 } 0x101 7 ⟨.basic, ⟨true, true, true⟩, 5⟩ =
    freeController 7 := rfl
-- R60: outputs
theorem test_outputs : stIset (after .extended true false true true) = 1 ∧ stAttr (after .extended true false true true) = 0b101 ∧
    stErr (after .extended true false true true) = 1 ∧ dlyKindBit .long = 1 ∧ xlAddr 8 = 16 := by decide
-- R204 over R9's reading back
theorem test_readBack : readBack (F 0xF8 0x00 0x10 ++ [.dly .long]) = some [.ins 0x001, .long] ∧
    readBack [.tx 0xF8] = none := by decide
-- an unframed list and a stray long settle are refused
theorem test_wellFramed : WellFramed { fresh .basic with events := F 0xF8 0x00 0x10 ++ [.dly .long] } = true ∧
    WellFramed { fresh .basic with events := F 0xF8 0x30 0x00 ++ [.dly .long] } = false ∧
    WellFramed { fresh .basic with events := [.dly .std] } = false := by decide
-- R78
theorem test_asm : asm (.setattr 2 false) = "SETATTR BLINK, 0" ∧ asm (.setpos 15) = "SETPOS 15" ∧
    asm (.dispctrl true true false) = "DISPCTRL 1,1,0" := by decide
-- V-HOST (R155, R156)
theorem test_half_AB : writeHalfWidth .absolute 0x20 [0x41, 0x42] 2 0 0 =
    some [.cmd14 0x0C00, .cmd14 0x1441, .cmd14 0x1442] := by decide
theorem test_half_ABC_odd : writeHalfWidth .absolute 0x20 [0x41, 0x42, 0x43] 3 0 15 =
    some [.cmd14 0x0C07, .cmd14 0x1420, .cmd14 0x1441, .cmd14 0x0C08, .cmd14 0x1442, .cmd14 0x1443] ∧
    writeHalfWidth .runRelative 0x20 [0x41, 0x42, 0x43] 3 0 15 =
    some [.cmd14 0x0C07, .cmd14 0x1420, .cmd14 0x1441, .cmd14 0x1442, .cmd14 0x1443] := by decide
theorem test_half_trailing : writeHalfWidth .absolute 0x20 [0x41] 1 0 0 =
    some [.cmd14 0x0C00, .cmd14 0x1441, .cmd14 0x1420] ∧ writeHalfWidth .absolute 0x20 [0x41] 2 0 0 = none := by decide
theorem test_full_start : writeFullWidth [0xB0A1] 1 1 0 =
    some [.cmd14 0x0C08, .cmd14 0x0401, .cmd14 0x14B0, .cmd14 0x14A1] := by decide
theorem test_full_out_of_range : writeFullWidth [0xB0A1, 0xB0A2] 2 3 7 = none ∧ writeFullWidth [0xB0A1] 1 4 0 = none := by decide
theorem test_host_operations : hostInitialize = [.cmd14 0x1C00] ∧ hostClear = [.cmd14 0x1800] ∧
    hostSetAttribute 2 false = [.cmd14 0x0804] := by decide

-- Witnesses: a state and operands that meet the hypotheses of each statement, clause by clause
theorem test_witness_DecodeEncodeCommands : (Instr.setattr 2 true).isCommand = true ∧ (Instr.setattr 2 true).wf = true := by decide
theorem test_witness_DecodeEncodeEmitted : Opc.ds.WDistinct ∧ Opc.ds.wDisp = true ∧ Opc.ds.wAddr6 = true ∧
    Opc.ds.wData = true ∧ (Instr.setddram 63).isCommand = false := ⟨ds_distinct, by decide⟩
theorem test_witness_EncodeDecodeCommands : decode14 0x1C00 = .ok .init := by decide
theorem test_witness_SetddramOperand : Opc.ds.wAddr6 = true ∧ 32 ≤ (32 : BitVec 6).toNat ∧ 32 ≤ (63 : BitVec 6).toNat := by decide
theorem test_witness_DisplayControlBits : Opc.ds.wDisp = true := by decide
theorem test_witness_FrameRoundTrip : unframe? 0xFE 0xF0 0xF0 = some 0x3FF ∧ unframe? 0xF8 0 0 = some 0 := by decide
theorem test_witness_SelectMeaning :
    ((after .basic true true true false).initDone = true ∧ (after .basic true true true false).iset = .basic) ∧
    ((after .basic true true true false).initDone = true ∧ (after .basic true true true false).iset ≠ .extended) ∧
    (fresh .basic).initDone = false ∧ (cmdOp 0x0402 = 1 ∧ (0x0402 : Cmd14).extractLsb' 1 9 ≠ 0) := by decide
theorem test_witness_SelectIsIdempotent :
    exec (.select .basic) (after .basic true true true false) = .next (after .basic true true true false) := rfl
theorem test_witness_SelectCountsSwitches : ∃ s : State, s.initDone = true ∧
    s.cmds = [InstrSet.extended, .basic].map (fun t => encode s.opc (.select t)) :=
  ⟨{ after .basic true true true false with cmds := [.cmd14 0x0401, .cmd14 0x0400] }, by decide⟩
theorem test_witness_WhoWritesIset : ∃ t : State,
    exec (.select .extended) (after .basic true true true false) = .next t ∧ t.iset ≠ (after .basic true true true false).iset :=
  ⟨_, rfl, by decide⟩
theorem test_witness_SetattrMeaning : ((0 : BitVec 2) ≠ 3 ∧ (2 : BitVec 2) ≠ 3 ∧ (after .basic true true true false).initDone = true) ∧
    (fresh .basic).initDone = false ∧ (cmdOp 0x0808 = 2 ∧ (0x0808 : Cmd14).extractLsb' 3 7 ≠ 0) ∧
    (cmdOp 0x0806 = 2 ∧ (0x0806 : Cmd14).extractLsb' 3 7 = 0 ∧ (0x0806 : Cmd14).extractLsb' 1 2 = 3) := by decide
theorem test_witness_WhoWritesAttributes : ∃ t : State,
    exec (.setattr 1 false) (after .basic true true true false) = .next t ∧ t.attrs ≠ (after .basic true true true false).attrs :=
  ⟨_, rfl, by decide⟩
theorem test_witness_TranslatorRanges : (0 : BitVec 5).toNat ≤ 7 ∧ (7 : BitVec 5).toNat ≤ 7 ∧
    (24 ≤ (31 : BitVec 5).toNat ∧ (31 : BitVec 5).toNat ≤ 31) ∧ (8 ≤ (15 : BitVec 5).toNat ∧ (15 : BitVec 5).toNat ≤ 15) ∧
    (16 ≤ (16 : BitVec 5).toNat ∧ (16 : BitVec 5).toNat ≤ 23) := by decide
theorem test_witness_TranslatorOnNaturals : 32 ≤ 32 ∧ 31 < 32 ∧ toDdramNat 30 = some 30 ∧ toDdramNat (30 + 1) = some 31 := by decide
theorem test_witness_SetaddrMeaning : (after .extended true true true false).initDone = true ∧ (fresh .basic).initDone = false ∧
    (cmdOp 0x1040 = 4 ∧ (0x1040 : Cmd14).extractLsb' 6 4 ≠ 0) := by decide
theorem test_witness_SetposMeaning : (after .extended true true true false).initDone = true ∧ (fresh .basic).initDone = false ∧
    (cmdOp 0x0C20 = 3 ∧ (0x0C20 : Cmd14).extractLsb' 5 5 ≠ 0) := by decide
theorem test_witness_WrdataMeaning : (fresh .basic).opc.wData = true ∧
    (cmdOp 0x1500 = 5 ∧ (0x1500 : Cmd14).extractLsb' 8 2 ≠ 0) := by decide
theorem test_witness_ClearMeaning : (after .extended true true true false).initDone = true ∧ (fresh .basic).initDone = false ∧
    (cmdOp 0x1801 = 6 ∧ cmdArg 0x1801 ≠ 0) := by decide
theorem test_witness_InitEstablishesMirrors : (fresh .basic).opc.wWrite = true ∧ (fresh .basic).opc.WDistinct ∧
    (fresh .basic).opc.wDisp = true := ⟨by decide, ds_distinct, by decide⟩
theorem test_witness_IllegalCommand :
    ({ fresh .basic with cmds := [.cmd14 0x2000] } : State).cmds = [.cmd14 0x2000] ∧ legalWord 0x2000 = false := by decide
theorem test_witness_ErrIsSticky : (∃ t : State, step { fresh .basic with cmds := [.cmd14 0x0402] } = .next t ∧
    (fresh .basic).err = false ∧ t.err = true) ∧
    ∃ t : State, step (after .basic true true true true) = .next t ∧ (after .basic true true true true).err = true :=
  ⟨⟨_, rfl, by decide⟩, ⟨_, rfl, by decide⟩⟩
theorem test_witness_OnlyStop : (readsIset .clear = true ∧ (fresh .basic).initDone = false) ∧ readsIset .init = false ∧
    (after .basic true true true false).initDone = true := by decide
theorem test_witness_StepRunsTheCommand : ({ fresh .basic with cmds := [.cmd14 0x1C00] } : State).cmds = [.cmd14 0x1C00] ∧
    decodeWord (fresh .basic).opc (.cmd14 0x1C00) = .ok .init ∧ (fresh .basic).cmds = [] := by decide
theorem test_witness_ResetValues : ∃ t : State, exec .init (fresh .basic) = .next t := ⟨_, rfl⟩
theorem test_witness_StepKeepsWellFramed : WellFramed (fresh .basic) = true ∧
    ∃ t : State, step { fresh .basic with cmds := [.cmd14 0x1C00] } = .next t := ⟨by decide, ⟨_, rfl⟩⟩
theorem test_witness_StepOnlyAppends : ∃ t : State, step { fresh .basic with cmds := [.cmd14 0x1C00] } = .next t ∧
    (fresh .basic).initDone = false ∧ t.initDone = true := ⟨_, rfl, by decide⟩
theorem test_witness_StepKeepsMirrors : ∃ s t : State, s.opc.wWrite = true ∧ s.opc.WDistinct ∧ s.opc.wDisp = true ∧ TrackerMirrors s ∧ AttrsMirror s ∧
    (∀ w rest i, s.cmds = w :: rest → decodeWord s.opc w = .ok i →
      rawTouchesSet s.opc i = false ∧ rawTouchesAttrs s.opc i = false) ∧ s.initDone = true ∧ step s = .next t := by
  refine ⟨{ after .basic true true true false with cmds := [.cmd14 0x0804] }, _, by decide, ds_distinct, by decide, fun _ => rfl,
    fun _ => rfl, ?_, rfl, rfl⟩
  intro w rest i hw hd
  obtain ⟨rfl, -⟩ := List.cons.inj hw
  cases hd
  decide
theorem test_witness_SetposLoadsAddressCounter : (after .extended true true true false).initDone = true ∧
    TrackerMirrors (after .extended true true true false) ∧ (after .extended true true true false).opc.wWrite = true ∧
    (after .extended true true true false).opc.WDistinct ∧
    (after .extended true true true false).opc.wAddr6 = true := ⟨rfl, fun _ => rfl, by decide, ds_distinct, by decide⟩
theorem test_witness_RepeatLeavesController : (after .extended true true true false).initDone = true ∧
    TrackerMirrors (after .extended true true true false) ∧ (after .extended true true true false).opc.wWrite = true ∧
    (after .extended true true true false).opc.WDistinct ∧ (0 : BitVec 2) ≠ 3 ∧ (2 : BitVec 2) ≠ 3 :=
  ⟨rfl, fun _ => rfl, by decide, ds_distinct, by decide, by decide⟩
theorem test_witness_CommandCost : ∃ t : State, exec .clear (after .extended true true true false) = .next t := ⟨_, rfl⟩
theorem test_witness_LegalRunsEnd : ∃ s : State, s.initDone = true ∧ s.cmds = [.cmd14 0x0401, .cmd14 0x1800] ∧
    ∀ c, Word.cmd14 c ∈ s.cmds → legalWord c = true := by
  refine ⟨{ after .basic true true true false with cmds := [.cmd14 0x0401, .cmd14 0x1800] }, rfl, rfl, ?_⟩
  intro c hc
  rcases List.mem_cons.1 hc with h | hc
  · cases h; decide
  · rcases List.mem_cons.1 hc with h | hc
    · cases h; decide
    · cases hc
theorem test_witness_EmitterWordsAreLegal :
    (∃ ws, writeHalfWidth .absolute 0x20 [0x41] 1 0 15 = some ws) ∧ ∃ ws, writeFullWidth [0xB0A1] 1 3 7 = some ws :=
  ⟨⟨_, rfl⟩, ⟨_, rfl⟩⟩
theorem test_witness_FullWidthRepositions : 0 < 2 ∧ ∃ ws, writeFullWidth [0xB0A1, 0xB0A2] 2 0 7 = some ws := ⟨by decide, ⟨_, rfl⟩⟩

end Sys2Proof.Tests
end

/-! What every step keeps: it runs the next command, appends to the event list, and writes neither the rest of the
host's list nor OPC (00_scope.md). -/

namespace Sys2Proof

/-- A command word is its operation code over its operand bits (R61). -/
theorem cmdOp_append_cmdArg (c : Cmd14) : cmdOp c ++ cmdArg c = c :=
  (BitVec.extractLsb'_append_extractLsb'_eq_extractLsb' (start₁ := 0) (len₁ := 10) rfl).trans BitVec.extractLsb'_eq_self

/-- INIT has one word: operation code 7 over an operand field of zeros (R63). -/
theorem decode14_eq_init {c : Cmd14} (h : decode14 c = .ok .init) : c = 0x1C00 := by
  -- of the nine cases of the decoder, only the one of operation code 7 answers INIT
  have fields : (cmdOp c).toNat = 7 ∧ cmdArg c = 0 := by
    simp only [decode14] at h
    split at h <;> grind
  obtain ⟨hop, harg⟩ := fields
  have hop : cmdOp c = 7 := BitVec.eq_of_toNat_eq hop
  rw [← cmdOp_append_cmdArg c, hop, harg]
  rfl

/-- No `st7920_10` word stands for INIT: its decoder answers an emitted instruction or a SEND. -/
theorem decodeWord_eq_init {o : Opc} {w : Word} (h : decodeWord o w = .ok .init) : w = .cmd14 0x1C00 := by
  cases w with
  | cmd14 c => rw [decode14_eq_init h]
  | st7920 I =>
    have h : decode10 o I = .init := by simpa [decodeWord] using h
    rcases decode10_cases o I with e | ⟨e, _⟩ <;> simp [h, Instr.isCommand] at e

end Sys2Proof

namespace Sys2Proof.Machine

/-- With no command presented the block stays idle (log entry 6). -/
theorem step_idle {s : State} (h : s.cmds = []) : step s = .next s := by
  rcases step_cases s with ⟨_, e⟩ | ⟨_, _, _, hc, _⟩ | ⟨_, _, _, hc, _⟩
  · exact e
  · simp [h] at hc
  · simp [h] at hc

/-- A word that decodes is consumed and its instruction is run (R47). -/
theorem step_decoded {s : State} {w : Word} {rest : List Word} {i : Instr} (hc : s.cmds = w :: rest)
    (hd : decodeWord s.opc w = .ok i) : step s = exec i (s.setCmds rest) := by
  rcases step_cases s with ⟨h, _⟩ | ⟨_, _, _, h, hi, e⟩ | ⟨_, _, _, h, hi, _⟩ <;> rw [hc] at h <;> cases h
  · rw [hd] at hi; cases hi; exact e
  · rw [hd] at hi; cases hi

/-- Settles O33: the two cases of a step with no illegal word. -/
theorem stepRunsTheCommand : Obligations.StepRunsTheCommand :=
  ⟨fun _ _ _ _ hc hd => step_decoded hc hd, fun _ h => step_idle h⟩

/-- `t` comes from `s` by appending events: the host's list, OPC and the record of an INIT are as they were. -/
structure OnlyAppends (s t : State) : Prop where
  events : s.events <+: t.events
  cmds : t.cmds = s.cmds
  opc : t.opc = s.opc
  initDone : t.initDone = s.initDone

namespace OnlyAppends

theorem refl (s : State) : OnlyAppends s s := ⟨List.prefix_rfl, rfl, rfl, rfl⟩

theorem trans {s t u : State} (h : OnlyAppends s t) (g : OnlyAppends t u) : OnlyAppends s u :=
  ⟨h.events.trans g.events, g.cmds.trans h.cmds, g.opc.trans h.opc, g.initDone.trans h.initDone⟩

theorem setIset (t : InstrSet) (s : State) : OnlyAppends s (s.setIset t) := ⟨List.prefix_rfl, rfl, rfl, rfl⟩

theorem raiseIllegalCommand (s : State) : OnlyAppends s (raiseIllegalCommand s) := ⟨List.prefix_rfl, rfl, rfl, rfl⟩

theorem writeAttr (w : BitVec 2) (v : Bool) (s : State) : OnlyAppends s (writeAttr w v s) := by
  rcases writeAttr_cases w v s with ⟨_, e⟩ | ⟨_, e⟩ | ⟨_, e⟩ | ⟨_, e⟩ <;> rw [e] <;>
    exact ⟨List.prefix_rfl, rfl, rfl, rfl⟩

theorem sendIns (I : Ins10) (s : State) : OnlyAppends s (sendIns I s) :=
  ⟨by simp, by simp, by simp, by simp⟩

theorem selectSet {u : InstrSet} {s t : State} (h : selectSet u s = .next t) : OnlyAppends s t := by
  rcases selectSet_cases u s with ⟨_, e⟩ | ⟨_, _, e⟩ | ⟨_, _, e⟩ <;> rw [e] at h <;> cases h
  · exact refl s
  · exact (sendIns _ s).trans (setIset u _)

theorem clearDisplay (s : State) : OnlyAppends s (clearDisplay s) :=
  (sendIns s.opc.clear s).trans (by rw [Machine.clearDisplay, longSettle_eq]; exact ⟨by simp, rfl, rfl, rfl⟩)

/-- Steps 2 to 5 of INIT, before the record that it has completed (R130). -/
theorem initSteps (s : State) :
    OnlyAppends s (initEntryMode (Machine.clearDisplay (initDefaultAttrs (initForceBasic s)))) := by
  have basic : OnlyAppends s (initForceBasic s) := (setIset .basic s).trans (sendIns _ _)
  have stored (r : State) : OnlyAppends r (((r.setAttrD true).setAttrU true).setAttrB true) :=
    ⟨List.prefix_rfl, rfl, rfl, rfl⟩
  have attrs (r : State) : OnlyAppends r (initDefaultAttrs r) := (stored r).trans (sendIns _ _)
  exact ((basic.trans (attrs _)).trans (clearDisplay _)).trans (sendIns _ _)

end OnlyAppends

/-- An instruction only appends, and INIT then records that it has completed. -/
theorem exec_onlyAppends {i : Instr} {s t : State} (h : exec i s = .next t) :
    OnlyAppends s t ∨ i = .init ∧ ∃ r, OnlyAppends s r ∧ t = r.setInitDone true := by
  rcases exec_next_cases h with ⟨u, _, _, _, rfl⟩ | ⟨v, _, rfl⟩ | ⟨I, rfl, _⟩ | ⟨u, _, _, _, rfl⟩ |
    ⟨w, v, r, _, _, hr, rfl⟩ | ⟨a, r, _, hr, rfl⟩ | ⟨r, _, hr, rfl⟩ | ⟨hi, rfl⟩
  · exact .inl (.refl _)
  · exact .inl (.raiseIllegalCommand s)
  · exact .inl (.sendIns I s)
  · exact .inl ((OnlyAppends.sendIns _ s).trans (.setIset u _))
  · exact .inl (((OnlyAppends.writeAttr w v s).trans (.selectSet hr)).trans (.sendIns _ r))
  · exact .inl ((OnlyAppends.selectSet hr).trans (.sendIns _ r))
  · exact .inl ((OnlyAppends.selectSet hr).trans (.clearDisplay r))
  · exact .inr ⟨hi, _, .initSteps s, rfl⟩

/-- A step only appends to the state with the next word consumed, and INIT then records that it has completed. -/
theorem step_onlyAppends {s t : State} (h : step s = .next t) :
    OnlyAppends (s.setCmds s.cmds.tail) t ∨
      s.cmds.head? = some (.cmd14 0x1C00) ∧ ∃ r, OnlyAppends (s.setCmds s.cmds.tail) r ∧ t = r.setInitDone true := by
  rcases step_cases s with ⟨hc, e⟩ | ⟨w, rest, i, hc, hd, e⟩ | ⟨w, rest, _, hc, _, e⟩ <;> rw [e] at h
  · cases h; exact .inl ⟨List.prefix_rfl, by simp [hc], rfl, rfl⟩
  · rw [hc]
    rcases exec_onlyAppends h with g | ⟨rfl, g⟩
    · exact .inl g
    · exact .inr ⟨by rw [decodeWord_eq_init hd]; rfl, g⟩
  · cases h; rw [hc]; exact .inl (.raiseIllegalCommand _)

/-- Settles O37, from what a step appends and the one word of INIT. -/
theorem stepOnlyAppends : Obligations.StepOnlyAppends := by
  intro s t h
  rcases step_onlyAppends h with ⟨⟨es, he⟩, hc, ho, hi⟩ | ⟨hw, r, ⟨⟨es, he⟩, hc, ho, _⟩, rfl⟩
  · refine ⟨⟨es, he.symm⟩, hc, ho, fun hs => hi.trans hs, fun hs ht => ?_⟩
    have : t.initDone = false := hi.trans hs
    simp [this] at ht
  · exact ⟨⟨es, he.symm⟩, hc, ho, fun _ => rfl, fun _ _ => hw⟩

end Sys2Proof.Machine

/-! The block's state is closed: nothing reads `err` (R23) or the controller (R28). A relation between states that fixes
what the block reads and that every update keeps is kept by every instruction and every step. -/

namespace Sys2Proof.Machine

/-- An illegal word is consumed and raises IllegalCommand (R171). -/
theorem step_illegal {s : State} {w : Word} {rest : List Word} {c : IllegalCause} (hc : s.cmds = w :: rest)
    (hd : decodeWord s.opc w = .error c) : step s = .next (raiseIllegalCommand (s.setCmds rest)) := by
  rcases step_cases s with ⟨h, _⟩ | ⟨_, _, _, h, hi, _⟩ | ⟨_, _, _, h, _, e⟩ <;> rw [hc] at h <;> cases h
  · rw [hd] at hi; cases hi
  · exact e

/-- `R` fixes every element that an instruction reads, and every update an instruction is made of keeps it. -/
structure KeptByUpdates (R : State → State → Prop) : Prop where
  iset {s t} : R s t → s.iset = t.iset
  attrD {s t} : R s t → s.attrD = t.attrD
  attrU {s t} : R s t → s.attrU = t.attrU
  attrB {s t} : R s t → s.attrB = t.attrB
  initDone {s t} : R s t → s.initDone = t.initDone
  cmds {s t} : R s t → s.cmds = t.cmds
  opc {s t} : R s t → s.opc = t.opc
  setIset {s t} (u : InstrSet) : R s t → R (s.setIset u) (t.setIset u)
  setAttrD {s t} (v : Bool) : R s t → R (s.setAttrD v) (t.setAttrD v)
  setAttrU {s t} (v : Bool) : R s t → R (s.setAttrU v) (t.setAttrU v)
  setAttrB {s t} (v : Bool) : R s t → R (s.setAttrB v) (t.setAttrB v)
  setInitDone {s t} (v : Bool) : R s t → R (s.setInitDone v) (t.setInitDone v)
  setCmds {s t} (ws : List Word) : R s t → R (s.setCmds ws) (t.setCmds ws)
  raiseIllegalCommand {s t} : R s t → R (raiseIllegalCommand s) (raiseIllegalCommand t)
  longSettle {s t} : R s t → R (longSettle s) (longSettle t)
  sendIns {s t} (I : Ins10) : R s t → R (sendIns I s) (sendIns I t)

/-- Two answers of the same kind: next states that `R` relates, or the same reason. -/
inductive AnswersRelated (R : State → State → Prop) : Answer → Answer → Prop
  | next {s t : State} (h : R s t) : AnswersRelated R (.next s) (.next t)
  | fault (r : Fault) : AnswersRelated R (.fault r) (.fault r)
  | refused (r : Refusal) : AnswersRelated R (.refused r) (.refused r)

theorem AnswersRelated.andThen {R : State → State → Prop} {a b : Answer} {f g : State → Answer}
    (h : AnswersRelated R a b) (hf : ∀ {s t}, R s t → AnswersRelated R (f s) (g t)) :
    AnswersRelated R (andThen a f) (andThen b g) := by
  cases h with
  | next h => exact hf h
  | fault r => exact .fault r
  | refused r => exact .refused r

namespace KeptByUpdates

variable {R : State → State → Prop} {s t : State}

/-- Sending a word that is built from OPC. -/
theorem sendWord (k : KeptByUpdates R) (word : Opc → Ins10) (h : R s t) :
    R (Machine.sendIns (word s.opc) s) (Machine.sendIns (word t.opc) t) := by
  rw [k.opc h]; exact k.sendIns _ h

theorem clearDisplay (k : KeptByUpdates R) (h : R s t) : R (clearDisplay s) (clearDisplay t) :=
  k.longSettle (k.sendWord Opc.clear h)

theorem writeAttr (k : KeptByUpdates R) (w : BitVec 2) (v : Bool) (h : R s t) :
    R (writeAttr w v s) (writeAttr w v t) := by
  unfold Machine.writeAttr
  split_ifs
  · exact k.setAttrD v h
  · exact k.setAttrU v h
  · exact k.setAttrB v h
  · exact h

theorem selectSet (k : KeptByUpdates R) (u : InstrSet) (h : R s t) :
    AnswersRelated R (selectSet u s) (selectSet u t) := by
  unfold Machine.selectSet
  rw [k.initDone h, k.iset h]
  split_ifs
  · exact .next h
  · exact .next (k.setIset u (k.sendWord (funcsetWord · u) h))
  · exact .fault _

theorem sendInBasic (k : KeptByUpdates R) {I : State → Ins10} (hI : ∀ {s t}, R s t → I s = I t) (h : R s t) :
    AnswersRelated R (sendInBasic I s) (sendInBasic I t) :=
  (k.selectSet .basic h).andThen fun h => by rw [hI h]; exact .next (k.sendIns _ h)

theorem setAddress (k : KeptByUpdates R) (a : BitVec 6) (h : R s t) :
    AnswersRelated R (setAddress a s) (setAddress a t) :=
  k.sendInBasic (fun h => by rw [k.opc h]) h

theorem resendAttrs (k : KeptByUpdates R) (h : R s t) : AnswersRelated R (resendAttrs s) (resendAttrs t) :=
  k.sendInBasic (fun h => by rw [k.opc h, k.attrD h, k.attrU h, k.attrB h]) h

theorem execSetattr (k : KeptByUpdates R) (w : BitVec 2) (v : Bool) (h : R s t) :
    AnswersRelated R (execSetattr w v s) (execSetattr w v t) := by
  unfold Machine.execSetattr
  split_ifs
  · exact .next (k.raiseIllegalCommand h)
  · exact k.resendAttrs (k.writeAttr w v h)

theorem execInit (k : KeptByUpdates R) (h : R s t) : AnswersRelated R (execInit s) (execInit t) := by
  have basic : R (initForceBasic s) (initForceBasic t) := k.sendWord Opc.fsBasic (k.setIset .basic h)
  have attrs : R (initDefaultAttrs (initForceBasic s)) (initDefaultAttrs (initForceBasic t)) :=
    k.sendWord (dispWord · true true true) (k.setAttrB true (k.setAttrU true (k.setAttrD true basic)))
  exact .next (k.setInitDone true (k.sendWord Opc.entryRight (k.clearDisplay attrs)))

theorem exec (k : KeptByUpdates R) (i : Instr) (h : R s t) : AnswersRelated R (exec i s) (exec i t) := by
  cases i with
  | send I => exact .next (k.sendIns I h)
  | select u => exact k.selectSet u h
  | setattr w v => exact k.execSetattr w v h
  | setpos p => exact k.setAddress (toDdram p) h
  | setaddr a => exact k.setAddress a h
  | wrdata b => exact .next (k.sendWord (writeWord · b) h)
  | clear => exact (k.selectSet .basic h).andThen fun h => .next (k.clearDisplay h)
  | init => exact k.execInit h
  | funcsetB => exact .next (k.sendWord (funcsetWord · .basic) h)
  | funcsetE => exact .next (k.sendWord (funcsetWord · .extended) h)
  | dispctrl d u b => exact .next (k.sendWord (dispWord · d u b) h)
  | clrdisp => exact .next (k.sendWord Opc.clear h)
  | entryR => exact .next (k.sendWord Opc.entryRight h)
  | setddram a => exact .next (k.sendWord (setddramWord · a) h)
  | write b => exact .next (k.sendWord (writeWord · b) h)

theorem step (k : KeptByUpdates R) (h : R s t) : AnswersRelated R (step s) (step t) := by
  rcases step_cases t with ⟨hc, e⟩ | ⟨w, rest, i, hc, hd, e⟩ | ⟨w, rest, c, hc, hd, e⟩ <;> rw [e]
  · rw [step_idle ((k.cmds h).trans hc)]
    exact .next h
  · rw [step_decoded ((k.cmds h).trans hc) (by rw [k.opc h]; exact hd)]
    exact k.exec i (k.setCmds rest h)
  · rw [step_illegal ((k.cmds h).trans hc) (by rw [k.opc h]; exact hd)]
    exact .next (k.raiseIllegalCommand (k.setCmds rest h))

end KeptByUpdates

/-- Equal but for `err`. -/
def SameButErr (s t : State) : Prop := s.setErr false = t.setErr false

theorem sameButErr_keptByUpdates : KeptByUpdates SameButErr where
  iset h := (congrArg State.iset h :)
  attrD h := (congrArg State.attrD h :)
  attrU h := (congrArg State.attrU h :)
  attrB h := (congrArg State.attrB h :)
  initDone h := (congrArg State.initDone h :)
  cmds h := (congrArg State.cmds h :)
  opc h := (congrArg State.opc h :)
  setIset u h := congrArg (State.setIset · u) h
  setAttrD v h := congrArg (State.setAttrD · v) h
  setAttrU v h := congrArg (State.setAttrU · v) h
  setAttrB v h := congrArg (State.setAttrB · v) h
  setInitDone v h := congrArg (State.setInitDone · v) h
  setCmds ws h := congrArg (State.setCmds · ws) h
  raiseIllegalCommand h := h
  longSettle h := congrArg longSettle h
  sendIns I h := congrArg (sendIns I) h

theorem blankErr_congr {a b : Answer} (h : AnswersRelated SameButErr a b) : blankErr a = blankErr b := by
  cases h with
  | next h => exact congrArg Host.Outcome.next h
  | fault r => rfl
  | refused r => rfl

/-- Settles O30: equality but for `err` is kept by every update. -/
theorem blockIgnoresErr : Obligations.BlockIgnoresErr := by
  intro s v
  have start : SameButErr { s with err := v } s := rfl
  exact blankErr_congr (sameButErr_keptByUpdates.step start)

/-- The state with the controller's ghost state and the count of free values replaced by given ones. -/
def State.withGhost (c : Controller) (n : Nat) (s : State) : State := (s.setCtl c).setFreeCount n

/-- Of a send only the four events are seen outside the ghost state (R96). -/
theorem withGhost_sendIns (c : Controller) (n : Nat) (I : Ins10) (s : State) :
    (sendIns I s).withGhost c n = { s.withGhost c n with events := (s.withGhost c n).events ++ insEvents I } := by
  rw [sendIns_eq]; rfl

/-- Equal but for the controller's ghost state and the count of free values. -/
def SameButGhost (c : Controller) (n : Nat) (s t : State) : Prop := s.withGhost c n = t.withGhost c n

theorem sameButGhost_keptByUpdates (c : Controller) (n : Nat) : KeptByUpdates (SameButGhost c n) where
  iset h := (congrArg State.iset h :)
  attrD h := (congrArg State.attrD h :)
  attrU h := (congrArg State.attrU h :)
  attrB h := (congrArg State.attrB h :)
  initDone h := (congrArg State.initDone h :)
  cmds h := (congrArg State.cmds h :)
  opc h := (congrArg State.opc h :)
  setIset u h := congrArg (State.setIset · u) h
  setAttrD v h := congrArg (State.setAttrD · v) h
  setAttrU v h := congrArg (State.setAttrU · v) h
  setAttrB v h := congrArg (State.setAttrB · v) h
  setInitDone v h := congrArg (State.setInitDone · v) h
  setCmds ws h := congrArg (State.setCmds · ws) h
  raiseIllegalCommand h := congrArg raiseIllegalCommand h
  longSettle h := congrArg longSettle h
  sendIns I h := by
    rw [SameButGhost] at h
    rw [SameButGhost, withGhost_sendIns, withGhost_sendIns, h]

theorem blankGhost_congr {c : Controller} {n : Nat} {a b : Answer} (h : AnswersRelated (SameButGhost c n) a b) :
    blankGhost c n a = blankGhost c n b := by
  cases h with
  | next h => exact congrArg Host.Outcome.next h
  | fault r => rfl
  | refused r => rfl

/-- Settles O31: equality but for the ghost state and the free values is kept by every update. -/
theorem blockIgnoresController : Obligations.BlockIgnoresController := by
  intro s c n
  have start : SameButGhost s.ctl s.freeCount { s with ctl := c, freeCount := n } s := rfl
  exact blankGhost_congr ((sameButGhost_keptByUpdates s.ctl s.freeCount).step start)

end Sys2Proof.Machine

/-! What an instruction leaves of the recorded set, the attributes and `err` (R20 to R23, R32), and which words the
decoder accepts (R64). -/

namespace Sys2Proof

/-- A word decodes to an instruction whose operands the spec admits: selector 3 is rejected (R64). -/
theorem wf_of_decodeWord {o : Opc} {w : Word} {i : Instr} (h : decodeWord o w = .ok i) : i.wf = true := by
  cases i with
  | setattr sel v =>
    suffices sel ≠ badSelectorCode by simpa [Instr.wf]
    cases w with
    | cmd14 c =>
      simp only [decodeWord, decode14] at h
      split at h <;> grind
    | st7920 I =>
      have h : decode10 o I = .setattr sel v := by simpa [decodeWord] using h
      rcases decode10_cases o I with e | ⟨e, _⟩ <;> simp [h, Instr.isCommand] at e
  | _ => rfl

/-- The bits that a row's mask covers are the row's pattern. -/
theorem extractLsb'_of_selects {c m p : Cmd14} {start len : Nat} (h : c &&& m = p)
    (hm : m.extractLsb' start len = BitVec.allOnes len) : c.extractLsb' start len = p.extractLsb' start len := by
  rw [← h, BitVec.extractLsb'_and, hm, BitVec.and_allOnes]

/-- The operand bits that a row's mask covers are the row's pattern. -/
theorem cmdArg_of_selects {c m p : Cmd14} {start len : Nat} (h : c &&& m = p) (hl : start + len ≤ 10)
    (hm : m.extractLsb' start len = BitVec.allOnes len) :
    (cmdArg c).extractLsb' start len = p.extractLsb' start len := by
  rw [cmdArg, BitVec.extractLsb'_extractLsb'_of_le hl]
  exact extractLsb'_of_selects h hm

/-- SETATTR with selector 3 is one of the two words that R64 excludes. -/
theorem badSelector_word {c : Cmd14} (hop : cmdOp c = 2) (hres : (cmdArg c).extractLsb' 3 7 = 0)
    (hsel : (cmdArg c).extractLsb' 1 2 = badSelectorCode) : c &&& 0x3FFE = 0x0806 := by
  have low : (cmdArg c).extractLsb' 1 2 ++ (cmdArg c).extractLsb' 0 1 = (cmdArg c).extractLsb' 0 3 :=
    BitVec.extractLsb'_append_extractLsb'_eq_extractLsb' rfl
  have arg : (cmdArg c).extractLsb' 3 7 ++ (cmdArg c).extractLsb' 0 3 = cmdArg c :=
    (BitVec.extractLsb'_append_extractLsb'_eq_extractLsb' rfl).trans BitVec.extractLsb'_eq_self
  rw [← cmdOp_append_cmdArg c, ← arg, hop, hres, ← low, hsel]
  generalize (cmdArg c).extractLsb' 0 1 = v
  revert v
  decide

/-- A word that selects a row of R63 decodes, selector 3 apart (R64). -/
theorem decode14_of_legalWord {c : Cmd14} (h : legalWord c = true) : ∃ i, decode14 c = .ok i := by
  simp only [legalWord, cmdRows, List.any_cons, List.any_nil, Bool.or_false, Bool.and_eq_true, Bool.or_eq_true,
    CmdRow.selects, beq_iff_eq, Bool.not_eq_true', beq_eq_false_iff_ne] at h
  obtain ⟨row | row | row | row | row | row | row | row, hsel⟩ := h
  all_goals have hop : cmdOp c = _ := extractLsb'_of_selects (start := 10) (len := 4) row rfl
  · simp [decode14, hop]
  · have hres := cmdArg_of_selects (start := 1) (len := 9) row (by decide) rfl
    simp [decode14, hop, hres]
  · have hres := cmdArg_of_selects (start := 3) (len := 7) row (by decide) rfl
    have hsel : (cmdArg c).extractLsb' 1 2 ≠ badSelectorCode := fun e => hsel (badSelector_word hop hres e)
    simp only [decode14, hop, hres]
    exact ⟨_, if_neg hsel⟩
  · have hres := cmdArg_of_selects (start := 5) (len := 5) row (by decide) rfl
    simp [decode14, hop, hres]
  · have hres := cmdArg_of_selects (start := 6) (len := 4) row (by decide) rfl
    simp [decode14, hop, hres]
  · have hres := cmdArg_of_selects (start := 8) (len := 2) row (by decide) rfl
    simp [decode14, hop, hres]
  · have harg : cmdArg c = 0 := extractLsb'_of_selects row rfl
    simp [decode14, hop, harg]
  · have harg : cmdArg c = 0 := extractLsb'_of_selects row rfl
    simp [decode14, hop, harg]

end Sys2Proof

namespace Sys2Proof.Machine

/-- The state that INIT leaves (R130). -/
def initResult (s : State) : State :=
  (initEntryMode (clearDisplay (initDefaultAttrs (initForceBasic s)))).setInitDone true

theorem exec_init (s : State) : exec .init s = .next (initResult s) := rfl

@[simp] theorem initResult_iset (s : State) : (initResult s).iset = .basic := by
  simp [initResult, initEntryMode, clearDisplay, longSettle, initDefaultAttrs, initForceBasic]

@[simp] theorem initResult_attrs (s : State) : (initResult s).attrs = ⟨true, true, true⟩ := by
  simp [initResult, initEntryMode, clearDisplay, longSettle, initDefaultAttrs, initForceBasic, State.attrs]

@[simp] theorem initResult_err (s : State) : (initResult s).err = s.err := by
  simp [initResult, initEntryMode, clearDisplay, longSettle, initDefaultAttrs, initForceBasic]

@[simp] theorem sendIns_attrs (I : Ins10) (s : State) : (sendIns I s).attrs = s.attrs := by simp [State.attrs]

@[simp] theorem clearDisplay_iset (s : State) : (clearDisplay s).iset = s.iset := by simp [clearDisplay, longSettle]

@[simp] theorem clearDisplay_attrs (s : State) : (clearDisplay s).attrs = s.attrs := by
  simp [clearDisplay, longSettle, State.attrs]

@[simp] theorem clearDisplay_err (s : State) : (clearDisplay s).err = s.err := by simp [clearDisplay, longSettle]

/-- Settles O14, over the ways an instruction reaches a next state. -/
theorem whoWritesIset : Obligations.WhoWritesIset := by
  intro i s t h hne
  rcases exec_next_cases h with ⟨u, _, _, _, rfl⟩ | ⟨v, _, rfl⟩ | ⟨I, rfl, _⟩ | ⟨u, hi, _, _, rfl⟩ |
    ⟨w, v, r, hi, _, hr, rfl⟩ | ⟨a, r, hi, hr, rfl⟩ | ⟨r, hi, hr, rfl⟩ | ⟨hi, rfl⟩
  · exact absurd rfl hne
  · exact absurd rfl hne
  · exact absurd (sendIns_iset I s) hne
  · exact .inl hi
  · obtain ⟨_, basic, _⟩ := selectBasic_next hr
    exact .inr ⟨by simpa using basic, .inr (.inr (.inl ⟨w, v, hi⟩))⟩
  · obtain ⟨_, basic, _⟩ := selectBasic_next hr
    refine .inr ⟨by simpa using basic, .inr (.inr (.inr ?_))⟩
    rcases hi with hi | ⟨p, hi, _⟩
    · exact .inr ⟨a, hi⟩
    · exact .inl ⟨p, hi⟩
  · obtain ⟨_, basic, _⟩ := selectBasic_next hr
    exact .inr ⟨by simpa using basic, .inr (.inl hi)⟩
  · exact .inr ⟨initResult_iset s, .inl hi⟩

/-- Which of the three attributes SETATTR writes (R120). -/
theorem writeAttr_attrs {w : BitVec 2} (hw : w ≠ 3) (v : Bool) (s : State) :
    (w = 0 ∧ (writeAttr w v s).attrs = ⟨v, s.attrU, s.attrB⟩) ∨
      (w = 1 ∧ (writeAttr w v s).attrs = ⟨s.attrD, v, s.attrB⟩) ∨
      (w = 2 ∧ (writeAttr w v s).attrs = ⟨s.attrD, s.attrU, v⟩) := by
  rcases writeAttr_cases w v s with ⟨e, h⟩ | ⟨e, h⟩ | ⟨e, h⟩ | ⟨e, _⟩
  · exact .inl ⟨e, by rw [h]; rfl⟩
  · exact .inr (.inl ⟨e, by rw [h]; rfl⟩)
  · exact .inr (.inr ⟨e, by rw [h]; rfl⟩)
  · exact absurd e hw

/-- Settles O16, over the ways an instruction reaches a next state. -/
theorem whoWritesAttributes : Obligations.WhoWritesAttributes := by
  intro i s t h hne
  rcases exec_next_cases h with ⟨u, _, _, _, rfl⟩ | ⟨v, _, rfl⟩ | ⟨I, rfl, _⟩ | ⟨u, _, _, _, rfl⟩ |
    ⟨w, v, r, hi, hw, hr, rfl⟩ | ⟨a, r, _, hr, rfl⟩ | ⟨r, _, hr, rfl⟩ | ⟨hi, rfl⟩
  · exact absurd rfl hne
  · exact absurd rfl hne
  · exact absurd (sendIns_attrs I s) hne
  · exact absurd (sendIns_attrs (funcsetWord s.opc u) s) hne
  · obtain ⟨_, _, attrs, _⟩ := selectBasic_next hr
    refine .inr ⟨w, v, hi, ?_⟩
    rw [sendIns_attrs, attrs]
    exact writeAttr_attrs hw v s
  · obtain ⟨_, _, attrs, _⟩ := selectBasic_next hr
    exact absurd ((sendIns_attrs _ r).trans attrs) hne
  · obtain ⟨_, _, attrs, _⟩ := selectBasic_next hr
    exact absurd ((clearDisplay_attrs r).trans attrs) hne
  · exact .inl ⟨hi, initResult_attrs s⟩

@[simp] theorem writeAttr_err (w : BitVec 2) (v : Bool) (s : State) : (writeAttr w v s).err = s.err := by
  rcases writeAttr_cases w v s with ⟨_, e⟩ | ⟨_, e⟩ | ⟨_, e⟩ | ⟨_, e⟩ <;> rw [e] <;> rfl

/-- A well-formed instruction leaves `err` as it was (R23). -/
theorem exec_err {i : Instr} {s t : State} (hwf : i.wf = true) (h : exec i s = .next t) : t.err = s.err := by
  rcases exec_next_cases h with ⟨u, _, _, _, rfl⟩ | ⟨v, rfl, _⟩ | ⟨I, rfl, _⟩ | ⟨u, _, _, _, rfl⟩ |
    ⟨w, v, r, _, _, hr, rfl⟩ | ⟨a, r, _, hr, rfl⟩ | ⟨r, _, hr, rfl⟩ | ⟨_, rfl⟩
  · rfl
  · cases hwf
  · exact sendIns_err I s
  · exact sendIns_err (funcsetWord s.opc u) s
  · obtain ⟨_, _, _, err, _⟩ := selectBasic_next hr
    rw [sendIns_err, err, writeAttr_err]
  · obtain ⟨_, _, _, err, _⟩ := selectBasic_next hr
    rw [sendIns_err, err]
  · obtain ⟨_, _, _, err, _⟩ := selectBasic_next hr
    rw [clearDisplay_err, err]
  · exact initResult_err s

/-- A rejected word is an illegal command word. -/
theorem illegal_of_decodeWord {o : Opc} {w : Word} {cause : IllegalCause} (h : decodeWord o w = .error cause) :
    ∃ c, w = .cmd14 c ∧ legalWord c = false := by
  cases w with
  | st7920 I => cases h
  | cmd14 c =>
    refine ⟨c, rfl, Bool.eq_false_iff.2 fun hl => ?_⟩
    obtain ⟨i, hi⟩ := decode14_of_legalWord hl
    rw [decodeWord, hi] at h
    cases h

/-- Settles O29: an instruction that a word decodes to leaves `err`, and a word that decodes to none is illegal. -/
theorem errIsSticky : Obligations.ErrIsSticky := by
  intro s t h
  rcases step_cases s with ⟨_, e⟩ | ⟨w, rest, i, hc, hd, e⟩ | ⟨w, rest, cause, hc, hd, e⟩ <;> rw [e] at h
  · cases h
    exact ⟨id, fun h0 h1 => by simp [h0] at h1⟩
  · have keeps : t.err = s.err := exec_err (s := s.setCmds rest) (wf_of_decodeWord hd) h
    exact ⟨fun h1 => keeps.trans h1, fun h0 h1 => by simp [keeps, h0] at h1⟩
  · cases h
    obtain ⟨c, rfl, hl⟩ := illegal_of_decodeWord hd
    exact ⟨fun _ => rfl, fun _ _ => ⟨c, rest, hc, hl⟩⟩

/-- Settles O34: the fields of the state after reset, and the attributes that INIT stores. -/
theorem resetValues : Obligations.ResetValues := by
  refine ⟨⟨rfl, rfl, rfl, rfl⟩, fun s => ⟨rfl, rfl, rfl, rfl, rfl, rfl⟩, fun s t h => ?_⟩
  rw [exec_init] at h
  cases h
  exact initResult_attrs s

/-- Settles O36: no events are a well-framed stream. -/
theorem resetIsWellFramed : Obligations.ResetIsWellFramed := rfl

end Sys2Proof.Machine

/-! The names of 10-bit instructions under an OPC with `W_write` and `W_distinct` (R67), and what the controller's ghost
state keeps of each (R28, log entries 4, 5). -/

namespace Sys2Proof

/-- The value set an emitted instruction's value belongs to (R67); a command has none. -/
def Instr.opName : Instr → Option OpName
  | .funcsetB => some .funcsetB
  | .funcsetE => some .funcsetE
  | .dispctrl _ _ _ => some .dispctrl
  | .clrdisp => some .clrdisp
  | .entryR => some .entryR
  | .setddram _ => some .setddram
  | .write _ => some .write
  | .send _ | .select _ | .setattr _ _ | .setpos _ | .setaddr _ | .wrdata _ | .clear | .init => none

/-- OR-ing an operand into a base lands in the value set of the base, when the operand lies inside its mask. -/
theorem or_operand_has {b x m : Ins10} (h : x &&& m = x) : b ||| ((b ||| x) &&& m) = b ||| x := by
  ext k hk
  have hx := congrArg (·[k]) h
  simp only [BitVec.getElem_and] at hx
  simp only [BitVec.getElem_or, BitVec.getElem_and]
  grind

theorem has_dispWord (o : Opc) (d u b : Bool) : o.has .dispctrl (dispWord o d u b) = true := by
  have hx : ∀ d u b : Bool, ((bit10 d <<< 2) ||| ((bit10 u <<< 1) ||| bit10 b)) &&& 0x007 =
    (bit10 d <<< 2) ||| ((bit10 u <<< 1) ||| bit10 b) := by decide
  simp only [Opc.has, dispWord, beq_iff_eq, BitVec.or_assoc]
  exact or_operand_has (hx d u b)

theorem has_setddramWord (o : Opc) (a : BitVec 6) : o.has .setddram (setddramWord o a) = true := by
  have hx : a.setWidth 10 &&& 0x03F = a.setWidth 10 := by revert a; decide
  simpa only [Opc.has, setddramWord, beq_iff_eq] using or_operand_has hx

theorem has_writeWord (o : Opc) (b : Byte) : o.has .write (writeWord o b) = true := by
  have hx : b.setWidth 10 &&& 0x0FF = b.setWidth 10 := by
    ext k hk; interval_cases k <;> simp
  simpa only [Opc.has, writeWord, beq_iff_eq] using or_operand_has hx

/-- An emitted instruction's value is in its value set. -/
theorem has_of_encode {o : Opc} {i : Instr} {n : OpName} {I : Ins10} (hn : i.opName = some n)
    (h : encode o i = .st7920 I) : o.has n I = true := by
  cases i <;> cases hn <;> cases h
  · simp [Opc.has, funcsetWord]
  · simp [Opc.has, funcsetWord]
  · exact has_dispWord ..
  · simp [Opc.has]
  · simp [Opc.has]
  · exact has_setddramWord ..
  · exact has_writeWord ..

/-- A value whose decoded name is `n` is in `n`'s value set. -/
theorem has_of_opName {o : Opc} {I : Ins10} {n : OpName} (h : (decode10 o I).opName = some n) : o.has n I = true := by
  rcases decode10_cases o I with e | ⟨_, e⟩
  · rw [e] at h; cases h
  · exact has_of_encode h e

/-- A value that some value set holds has a name. -/
theorem opName_ne_none {o : Opc} {I : Ins10} {n : OpName} (h : o.has n I = true) : (decode10 o I).opName ≠ none := by
  unfold decode10
  split_ifs <;> simp only [Instr.opName, ne_eq, reduceCtorEq, not_false_eq_true]
  cases n <;> contradiction

/-- A value that some value set holds is the value of its name. -/
theorem encode_decode10 {o : Opc} {I : Ins10} {n : OpName} (h : o.has n I = true) :
    encode o (decode10 o I) = .st7920 I := by
  rcases decode10_cases o I with e | ⟨_, e⟩
  · exact absurd (by rw [e]; rfl) (opName_ne_none h)
  · exact e

/-- Under `W_distinct` a value's name is the one value set that holds it. -/
theorem opName_decode10 {o : Opc} (hd : o.WDistinct) {I : Ins10} {n : OpName} (h : o.has n I = true) :
    (decode10 o I).opName = some n := by
  obtain ⟨m, hm⟩ := Option.ne_none_iff_exists'.1 (opName_ne_none h)
  rw [hm, hd m n I (has_of_opName hm) h]

/-- The instruction of a value in a value set, up to its operand. -/
theorem opName_eq_some {i : Instr} {n : OpName} (h : i.opName = some n) :
    match n with
    | .funcsetB => i = .funcsetB
    | .funcsetE => i = .funcsetE
    | .dispctrl => ∃ d u b, i = .dispctrl d u b
    | .clrdisp => i = .clrdisp
    | .entryR => i = .entryR
    | .setddram => ∃ a, i = .setddram a
    | .write => ∃ b, i = .write b := by
  cases i <;> cases h <;> simp

/-- With `W_disp` display is bit 2, underline bit 1 and blink bit 0 of display control (R69). -/
theorem dispWord_bits {o : Opc} (h : o.wDisp = true) (d u b : Bool) :
    (dispWord o d u b).getLsbD 2 = d ∧ (dispWord o d u b).getLsbD 1 = u ∧ (dispWord o d u b).getLsbD 0 = b := by
  have low : o.dispBase.getLsbD 2 = false ∧ o.dispBase.getLsbD 1 = false ∧ o.dispBase.getLsbD 0 = false := by
    simp only [Opc.wDisp, List.any_eq_true, beq_iff_eq] at h
    obtain ⟨k, hk, hb⟩ := h
    rw [hb]
    clear hb
    revert k
    decide
  obtain ⟨h2, h1, h0⟩ := low
  simp only [dispWord, bit10, BitVec.getLsbD_or, h2, h1, h0]
  simp

/-- With `W_addr6` the address is bits 5:0 of set-address (R71). -/
theorem setWidth_setddramWord {o : Opc} (h : o.wAddr6 = true) (a : BitVec 6) : (setddramWord o a).setWidth 6 = a := by
  have low : o.setaddrBase.setWidth 6 = 0 := by
    have := congrArg (BitVec.setWidth 6) (beq_iff_eq.1 h)
    rw [BitVec.setWidth_and] at this
    exact (BitVec.and_allOnes (x := o.setaddrBase.setWidth 6)).symm.trans this
  rw [setddramWord, BitVec.setWidth_or, low]
  simp

/-- Display control decodes to the three settings it was built from (R69). -/
theorem decode10_dispWord {o : Opc} (hd : o.WDistinct) (hp : o.wDisp = true) (d u b : Bool) :
    decode10 o (dispWord o d u b) = .dispctrl d u b := by
  have named := has_dispWord o d u b
  obtain ⟨d', u', b', e⟩ := opName_eq_some (n := .dispctrl) (opName_decode10 hd named)
  have same : dispWord o d' u' b' = dispWord o d u b := by
    have := encode_decode10 named
    rw [e] at this
    exact Word.st7920.inj this
  obtain ⟨h2, h1, h0⟩ := dispWord_bits hp d u b
  obtain ⟨h2', h1', h0'⟩ := same ▸ dispWord_bits hp d' u' b'
  rw [e, h2'.symm.trans h2, h1'.symm.trans h1, h0'.symm.trans h0]

/-- Set-address decodes to the address it was built from (R71). -/
theorem decode10_setddramWord {o : Opc} (hd : o.WDistinct) (ha : o.wAddr6 = true) (a : BitVec 6) :
    decode10 o (setddramWord o a) = .setddram a := by
  have named := has_setddramWord o a
  obtain ⟨a', e⟩ := opName_eq_some (n := .setddram) (opName_decode10 hd named)
  have same : setddramWord o a' = setddramWord o a := by
    have := encode_decode10 named
    rw [e] at this
    exact Word.st7920.inj this
  rw [e, ← setWidth_setddramWord ha a', same, setWidth_setddramWord ha a]

/-- Under `W_write` a value that some value set holds has RW = 0. -/
theorem rw_of_has {o : Opc} (hw : o.wWrite = true) {n : OpName} {I : Ins10} (h : o.has n I = true) :
    I.getLsbD 8 = false := by
  obtain ⟨fs, disp, clear, entry, addr, data⟩ := wWrite_rw hw
  have e := encode_decode10 h
  cases hi : decode10 o I <;> rw [hi] at e <;> cases e
  case funcsetB => exact fs .basic
  case funcsetE => exact fs .extended
  case dispctrl => exact disp ..
  case clrdisp => exact clear
  case entryR => exact entry
  case setddram => exact addr _
  case write => exact data _

theorem has_fsBasic (o : Opc) : o.has .funcsetB o.fsBasic = true := by simp [Opc.has]

theorem has_fsExt (o : Opc) : o.has .funcsetE o.fsExt = true := by simp [Opc.has]

theorem has_clear (o : Opc) : o.has .clrdisp o.clear = true := by simp [Opc.has]

theorem has_entryRight (o : Opc) : o.has .entryR o.entryRight = true := by simp [Opc.has]

/-- Each set's function set decodes to itself (R68). -/
theorem decode10_funcsetWord {o : Opc} (hd : o.WDistinct) :
    decode10 o (funcsetWord o .basic) = .funcsetB ∧ decode10 o (funcsetWord o .extended) = .funcsetE :=
  ⟨opName_eq_some (n := .funcsetB) (opName_decode10 hd (has_fsBasic o)),
    opName_eq_some (n := .funcsetE) (opName_decode10 hd (has_fsExt o))⟩

/-- What the statements about the ghost state need of OPC: the controller receives every instruction the block builds as
the one it was built as (R67, log entry 22). -/
structure Opc.Readable (o : Opc) : Prop where
  write : o.wWrite = true
  distinct : o.WDistinct

/-- A function set: the names that select the controller's set. -/
def OpName.isFuncset : OpName → Bool
  | .funcsetB | .funcsetE => true
  | .dispctrl | .clrdisp | .entryR | .setddram | .write => false

end Sys2Proof

namespace Sys2Proof.Machine

section Controller

variable {o : Opc} (ho : o.Readable) {n : OpName} {I : Ins10}
include ho

/-- A named instruction that is no function set leaves the selected set (R28). -/
theorem controllerReceives_cset (h : o.has n I = true) (hn : n.isFuncset = false) (k : Nat) (c : Controller) :
    (controllerReceives o I k c).cset = c.cset := by
  have hi := opName_decode10 ho.distinct h
  unfold controllerReceives
  rw [rw_of_has ho.write h]
  cases e : decode10 o I <;> rw [e] at hi <;> cases hi
  case funcsetB | funcsetE => cases hn
  case dispctrl | setddram => cases c.cset <;> rfl
  case clrdisp | entryR | write => rfl

/-- A named instruction that is no display control leaves the settings (R28). -/
theorem controllerReceives_cattr (h : o.has n I = true) (hn : n ≠ .dispctrl) (k : Nat) (c : Controller) :
    (controllerReceives o I k c).cattr = c.cattr := by
  have hi := opName_decode10 ho.distinct h
  unfold controllerReceives
  rw [rw_of_has ho.write h]
  cases e : decode10 o I <;> rw [e] at hi <;> cases hi
  case dispctrl => exact absurd rfl hn
  case setddram => cases c.cset <;> rfl
  case funcsetB | funcsetE | clrdisp | entryR | write => rfl

/-- The function set of `u` selects `u` and leaves the settings (R28). -/
theorem controllerReceives_funcsetWord (u : InstrSet) (k : Nat) (c : Controller) :
    controllerReceives o (funcsetWord o u) k c = ⟨u, c.cattr, Config.freeAddr k⟩ := by
  obtain ⟨basic, extended⟩ := decode10_funcsetWord ho.distinct
  cases u with
  | basic => exact (controllerReceives_funcset (rw_of_has ho.write (has_fsBasic o)) k c).1 basic
  | extended => exact (controllerReceives_funcset (rw_of_has ho.write (has_fsExt o)) k c).2 extended

end Controller

section Sends

variable {s : State} (ho : s.opc.Readable) {n : OpName} {I : Ins10}
include ho

theorem sendIns_cset (h : s.opc.has n I = true) (hn : n.isFuncset = false) :
    (sendIns I s).ctl.cset = s.ctl.cset := by
  rw [sendIns_ctl]; exact controllerReceives_cset ho h hn ..

theorem sendIns_cattr (h : s.opc.has n I = true) (hn : n ≠ .dispctrl) :
    (sendIns I s).ctl.cattr = s.ctl.cattr := by
  rw [sendIns_ctl]; exact controllerReceives_cattr ho h hn ..

theorem sendIns_funcsetWord_ctl (u : InstrSet) :
    (sendIns (funcsetWord s.opc u) s).ctl = ⟨u, s.ctl.cattr, Config.freeAddr s.freeCount⟩ := by
  rw [sendIns_ctl]; exact controllerReceives_funcsetWord ho ..

/-- Display control sent in the Basic set stores its three settings in the controller. -/
theorem sendIns_dispWord_cattr (hp : s.opc.wDisp = true) (hc : s.ctl.cset = .basic) (d u b : Bool) :
    (sendIns (dispWord s.opc d u b) s).ctl.cattr = ⟨d, u, b⟩ := by
  rw [sendIns_ctl, controllerReceives_dispctrl (rw_of_has ho.write (has_dispWord ..))
    (decode10_dispWord ho.distinct hp d u b) hc]

/-- Set-address sent in the Basic set loads the controller's address counter. -/
theorem sendIns_setddramWord_cac (ha : s.opc.wAddr6 = true) (hc : s.ctl.cset = .basic) (a : BitVec 6) :
    (sendIns (setddramWord s.opc a) s).ctl.cac = a := by
  rw [sendIns_ctl, controllerReceives_setddram (rw_of_has ho.write (has_setddramWord ..))
    (decode10_setddramWord ho.distinct ha a) hc]

end Sends

end Sys2Proof.Machine

/-! Every step keeps the recorded set and the attributes equal to the controller's, raw sends apart (R29, R31). -/

namespace Sys2Proof.Machine

/-- An emitted instruction has a name; it touches the set when it is a function set. -/
theorem opName_of_emitted (o : Opc) {i : Instr} (h : i.isCommand = false) :
    ∃ n, i.opName = some n ∧ rawTouchesSet o i = n.isFuncset ∧
      rawTouchesAttrs o i = (n.isFuncset || n == .dispctrl) := by
  cases i with
  | send | select | setattr | setpos | setaddr | wrdata | clear | init => cases h
  | funcsetB | funcsetE | dispctrl | clrdisp | entryR | setddram | write => exact ⟨_, rfl, rfl, rfl⟩

/-- A raw send that the tracker's invariant admits has a named value, and touches what the instruction of that name
touches. -/
theorem rawTouches_send {o : Opc} {I : Ins10} (h : rawTouchesSet o (.send I) = false) :
    (decode10 o I).isCommand = false ∧ rawTouchesSet o (decode10 o I) = false ∧
      rawTouchesAttrs o (decode10 o I) = rawTouchesAttrs o (.send I) := by
  cases e : decode10 o I <;> simp [rawTouchesSet, rawTouchesAttrs, e, Instr.isCommand] at h ⊢

theorem rawTouchesSet_of_attrs {o : Opc} {i : Instr} (h : rawTouchesAttrs o i = false) : rawTouchesSet o i = false := by
  cases i with
  | send I => cases e : decode10 o I <;> simp [rawTouchesAttrs, rawTouchesSet, e] at h ⊢
  | dispctrl d u b => rfl
  | _ => exact h

/-- What an instruction that is one raw send puts on the bus: a named value, no function set if the instruction is
admitted by the tracker's invariant (R29), no display control if it is admitted by that of R31. -/
theorem has_of_rawSend {o : Opc} {i : Instr} {I : Ins10}
    (h : i = .send I ∨ (∃ b, i = .wrdata b ∧ I = writeWord o b) ∨
      (i.isCommand = false ∧ encode o i = .st7920 I))
    (hr : rawTouchesSet o i = false) :
    ∃ n, o.has n I = true ∧ n.isFuncset = false ∧ (rawTouchesAttrs o i = false → n ≠ .dispctrl) := by
  rcases h with rfl | ⟨b, rfl, rfl⟩ | ⟨emitted, henc⟩
  · obtain ⟨emitted, set, attrs⟩ := rawTouches_send hr
    obtain ⟨n, hn, hset, hattrs⟩ := opName_of_emitted o emitted
    refine ⟨n, has_of_opName hn, hset.symm.trans set, fun ha => ?_⟩
    rintro rfl
    simp [hattrs, ← attrs] at ha
  · exact ⟨.write, has_writeWord o b, rfl, fun _ => by decide⟩
  · obtain ⟨n, hn, hset, hattrs⟩ := opName_of_emitted o emitted
    refine ⟨n, has_of_encode hn henc, hset.symm.trans hr, fun ha => ?_⟩
    rintro rfl
    simp [hattrs] at ha

@[simp] theorem writeAttr_iset (w : BitVec 2) (v : Bool) (s : State) : (writeAttr w v s).iset = s.iset := by
  rcases writeAttr_cases w v s with ⟨_, e⟩ | ⟨_, e⟩ | ⟨_, e⟩ | ⟨_, e⟩ <;> rw [e] <;> rfl

@[simp] theorem writeAttr_ctl (w : BitVec 2) (v : Bool) (s : State) : (writeAttr w v s).ctl = s.ctl := by
  rcases writeAttr_cases w v s with ⟨_, e⟩ | ⟨_, e⟩ | ⟨_, e⟩ | ⟨_, e⟩ <;> rw [e] <;> rfl

@[simp] theorem writeAttr_opc (w : BitVec 2) (v : Bool) (s : State) : (writeAttr w v s).opc = s.opc :=
  (OnlyAppends.writeAttr w v s).opc

@[simp] theorem clearDisplay_ctl (s : State) : (clearDisplay s).ctl = (sendIns s.opc.clear s).ctl := by
  rw [clearDisplay, longSettle_eq]

@[simp] theorem clearDisplay_opc (s : State) : (clearDisplay s).opc = s.opc := (OnlyAppends.clearDisplay s).opc

@[simp] theorem initForceBasic_opc (s : State) : (initForceBasic s).opc = s.opc := by simp [initForceBasic]

@[simp] theorem initDefaultAttrs_opc (s : State) : (initDefaultAttrs s).opc = s.opc := by simp [initDefaultAttrs]

section Operations

variable {s : State} (ho : s.opc.Readable)
include ho

/-- After SELECT(Basic) the controller too is in the Basic set, its settings and OPC as they were. -/
theorem selectBasic_ctl {r : State} (h : selectSet .basic s = .next r) (hm : s.iset = s.ctl.cset) :
    r.opc = s.opc ∧ r.iset = .basic ∧ r.ctl.cset = .basic ∧ r.ctl.cattr = s.ctl.cattr := by
  obtain ⟨_, basic, _, _, _, _, opc⟩ := selectBasic_next h
  refine ⟨opc, basic, ?_⟩
  rcases selectSet_cases .basic s with ⟨_, e⟩ | ⟨_, _, e⟩ | ⟨_, _, e⟩ <;> rw [e] at h <;> cases h
  · exact ⟨hm.symm.trans basic, rfl⟩
  · rw [State.setIset_ctl, sendIns_funcsetWord_ctl ho]
    exact ⟨rfl, rfl⟩

theorem clearDisplay_cset : (clearDisplay s).ctl.cset = s.ctl.cset := by
  rw [clearDisplay_ctl, sendIns_cset ho (has_clear _) rfl]

theorem clearDisplay_cattr : (clearDisplay s).ctl.cattr = s.ctl.cattr := by
  rw [clearDisplay_ctl, sendIns_cattr ho (has_clear _) (by decide)]

theorem initForceBasic_cset : (initForceBasic s).ctl.cset = .basic :=
  congrArg Controller.cset (sendIns_funcsetWord_ctl (s := s.setIset .basic) ho .basic)

theorem initDefaultAttrs_cset : (initDefaultAttrs s).ctl.cset = s.ctl.cset :=
  sendIns_cset (s := ((s.setAttrD true).setAttrU true).setAttrB true) ho (has_dispWord s.opc true true true) rfl

theorem initDefaultAttrs_cattr (hp : s.opc.wDisp = true) (hc : s.ctl.cset = .basic) :
    (initDefaultAttrs s).ctl.cattr = ⟨true, true, true⟩ :=
  sendIns_dispWord_cattr (s := ((s.setAttrD true).setAttrU true).setAttrB true) ho hp hc true true true

theorem initEntryMode_cset : (initEntryMode s).ctl.cset = s.ctl.cset :=
  sendIns_cset ho (has_entryRight s.opc) rfl

theorem initEntryMode_cattr : (initEntryMode s).ctl.cattr = s.ctl.cattr :=
  sendIns_cattr ho (has_entryRight s.opc) (by decide)

/-- INIT leaves the controller in the Basic set, whatever it was before (R133). -/
theorem initResult_cset : (initResult s).ctl.cset = .basic := by
  rw [initResult, State.setInitDone_ctl, initEntryMode_cset (by simpa using ho), clearDisplay_cset (by simpa using ho),
    initDefaultAttrs_cset (by simpa using ho), initForceBasic_cset ho]

/-- INIT leaves the controller's three settings on, whatever they were before (R133). -/
theorem initResult_cattr (hp : s.opc.wDisp = true) : (initResult s).ctl.cattr = ⟨true, true, true⟩ := by
  rw [initResult, State.setInitDone_ctl, initEntryMode_cattr (by simpa using ho),
    clearDisplay_cattr (by simpa using ho), initDefaultAttrs_cattr (by simpa using ho) (by simpa using hp)
      (initForceBasic_cset ho)]

/-- Every instruction keeps the recorded set equal to the controller's, raw sends that touch the set apart (R29). -/
theorem exec_keeps_set {i : Instr} {t : State} (hr : rawTouchesSet s.opc i = false) (hm : s.iset = s.ctl.cset)
    (h : exec i s = .next t) : t.iset = t.ctl.cset := by
  rcases exec_next_cases h with ⟨u, _, _, _, rfl⟩ | ⟨v, _, rfl⟩ | ⟨I, rfl, hI⟩ | ⟨u, _, _, _, rfl⟩ |
    ⟨w, v, r, _, _, hs, rfl⟩ | ⟨a, r, _, hs, rfl⟩ | ⟨r, _, hs, rfl⟩ | ⟨_, rfl⟩
  · exact hm
  · exact hm
  · obtain ⟨n, named, set, _⟩ := has_of_rawSend hI hr
    rw [sendIns_iset, sendIns_cset ho named set, hm]
  · rw [State.setIset_iset, State.setIset_ctl, sendIns_funcsetWord_ctl ho]
  · obtain ⟨opc, basic, set, _⟩ := selectBasic_ctl (by simpa using ho) hs (by simpa using hm)
    rw [sendIns_iset, sendIns_cset (by simpa [opc] using ho) (has_dispWord ..) rfl, basic, set]
  · obtain ⟨opc, basic, set, _⟩ := selectBasic_ctl ho hs hm
    rw [sendIns_iset, sendIns_cset (by simpa [opc] using ho) (has_setddramWord ..) rfl, basic, set]
  · obtain ⟨opc, basic, set, _⟩ := selectBasic_ctl ho hs hm
    rw [clearDisplay_iset, clearDisplay_cset (by simpa [opc] using ho), basic, set]
  · exact (initResult_iset s).trans (initResult_cset ho).symm

/-- Every instruction that finds the recorded set equal to the controller's keeps the attributes equal to the
controller's settings, raw sends that touch the set or the settings apart (R31). -/
theorem exec_keeps_attrs {i : Instr} {t : State} (hp : s.opc.wDisp = true) (hr : rawTouchesAttrs s.opc i = false)
    (hm : s.iset = s.ctl.cset) (ha : s.attrs = s.ctl.cattr) (h : exec i s = .next t) : t.attrs = t.ctl.cattr := by
  rcases exec_next_cases h with ⟨u, _, _, _, rfl⟩ | ⟨v, _, rfl⟩ | ⟨I, rfl, hI⟩ | ⟨u, _, _, _, rfl⟩ |
    ⟨w, v, r, _, _, hs, rfl⟩ | ⟨a, r, _, hs, rfl⟩ | ⟨r, _, hs, rfl⟩ | ⟨_, rfl⟩
  · exact ha
  · exact ha
  · obtain ⟨n, named, _, attrs⟩ := has_of_rawSend hI (rawTouchesSet_of_attrs hr)
    rw [sendIns_attrs, sendIns_cattr ho named (attrs hr), ha]
  · rw [State.setIset_ctl, sendIns_funcsetWord_ctl ho]
    exact (sendIns_attrs (funcsetWord s.opc u) s).trans ha
  · obtain ⟨opc, _, set, _⟩ := selectBasic_ctl (by simpa using ho) hs (by simpa using hm)
    rw [sendIns_attrs, sendIns_dispWord_cattr (by simpa [opc] using ho) (by simpa [opc] using hp) set]
    rfl
  · obtain ⟨opc, _, _, settings⟩ := selectBasic_ctl ho hs hm
    obtain ⟨_, _, attrs, _⟩ := selectBasic_next hs
    rw [sendIns_attrs, sendIns_cattr (by simpa [opc] using ho) (has_setddramWord ..) (by decide), attrs, settings, ha]
  · obtain ⟨opc, _, _, settings⟩ := selectBasic_ctl ho hs hm
    obtain ⟨_, _, attrs, _⟩ := selectBasic_next hs
    rw [clearDisplay_attrs, clearDisplay_cattr (by simpa [opc] using ho), attrs, settings, ha]
  · exact (initResult_attrs s).trans (initResult_cattr ho hp).symm

end Operations

/-- Settles O38: INIT makes the two sets equal, every other instruction that is admitted keeps them so. -/
theorem stepKeepsTrackerMirror : Obligations.StepKeepsTrackerMirror := by
  intro s t hw hd hm hr h ht
  have ho : s.opc.Readable := ⟨hw, hd⟩
  rcases step_cases s with ⟨_, e⟩ | ⟨w, rest, i, hc, hi, e⟩ | ⟨w, rest, _, _, _, e⟩ <;> rw [e] at h
  · cases h; exact hm ht
  · rcases exec_onlyAppends h with ⟨_, _, _, done⟩ | ⟨rfl, _⟩
    · have mirrored : s.iset = s.ctl.cset := hm (done.symm.trans ht)
      exact exec_keeps_set (s := s.setCmds rest) ho (hr w rest i hc hi) mirrored h
    · rw [exec_init] at h
      cases h
      exact (initResult_iset _).trans (initResult_cset (s := s.setCmds rest) ho).symm
  · cases h; exact hm ht

/-- Settles O39: INIT makes the attributes equal, every other instruction that is admitted keeps them so. -/
theorem stepKeepsAttrsMirror : Obligations.StepKeepsAttrsMirror := by
  intro s t hw hd hp hm ha hr h ht
  have ho : s.opc.Readable := ⟨hw, hd⟩
  rcases step_cases s with ⟨_, e⟩ | ⟨w, rest, i, hc, hi, e⟩ | ⟨w, rest, _, _, _, e⟩ <;> rw [e] at h
  · cases h; exact ha ht
  · rcases exec_onlyAppends h with ⟨_, _, _, done⟩ | ⟨rfl, _⟩
    · have before : s.initDone = true := done.symm.trans ht
      exact exec_keeps_attrs (s := s.setCmds rest) ho hp (hr w rest i hc hi) (hm before) (ha before) h
    · rw [exec_init] at h
      cases h
      exact (initResult_attrs _).trans (initResult_cattr (s := s.setCmds rest) ho hp).symm
  · cases h; exact ha ht

/-- Once an INIT has completed, SELECT answers a next state. -/
theorem selectSet_next (u : InstrSet) {s : State} (h : s.initDone = true) : ∃ r, selectSet u s = .next r := by
  rcases selectSet_cases u s with ⟨h0, _⟩ | ⟨_, _, e⟩ | ⟨_, _, e⟩
  · simp [h] at h0
  · exact ⟨_, e⟩
  · exact ⟨_, e⟩

/-- Settles O40: SELECT(Basic) brings the controller into the Basic set, where set-address loads its counter. -/
theorem setposLoadsAddressCounter : Obligations.SetposLoadsAddressCounter := by
  intro p s hi hm hw hd ha
  have ho : s.opc.Readable := ⟨hw, hd⟩
  obtain ⟨r, hs⟩ := selectSet_next .basic hi
  obtain ⟨opc, _, set, _⟩ := selectBasic_ctl ho hs (hm hi)
  refine ⟨sendIns (setddramWord r.opc (toDdram p)) r, ?_, ?_⟩
  · simp [exec, execSetpos, setAddress, sendInBasic, hs]
  · exact sendIns_setddramWord_cac (by simpa [opc] using ho) (by simpa [opc] using ha) set _

end Sys2Proof.Machine

/-! Repeating an instruction that the controller has just received in the Basic set (R49, R122). -/

namespace Sys2Proof

/-- Display control and set-address: what the controller keeps of them in the Basic set is their operand alone. -/
def OpName.storesOperand : OpName → Bool
  | .dispctrl | .setddram => true
  | .funcsetB | .funcsetE | .clrdisp | .entryR | .write => false

end Sys2Proof

namespace Sys2Proof.Machine

/-- The frame computed from the byte formulas of R74 is the frame drawn field by field in R73. -/
theorem insEvents_eq_frameFields (I : Ins10) : insEvents I = frameFields I := by
  have byte1 : frameByte1 I = (0b11111 : BitVec 5) ++ I.extractLsb' 8 1 ++ I.extractLsb' 9 1 ++ (0 : BitVec 1) := by
    refine BitVec.eq_of_getLsbD_eq fun k hk => ?_
    rw [BitVec.getLsbD_append, BitVec.getLsbD_append, BitVec.getLsbD_append]
    interval_cases k <;> simp [frameByte1, insBit]
  have byte2 : frameByte2 I = I.extractLsb' 4 4 ++ (0 : BitVec 4) := by
    refine BitVec.eq_of_getLsbD_eq fun k hk => ?_
    rw [BitVec.getLsbD_append]
    interval_cases k <;> simp [frameByte2]
  have byte3 : frameByte3 I = I.extractLsb' 0 4 ++ (0 : BitVec 4) := by
    refine BitVec.eq_of_getLsbD_eq fun k hk => ?_
    rw [BitVec.getLsbD_append]
    interval_cases k <;> simp [frameByte3]
  rw [insEvents, byte1, byte2, byte3, frameFields]

/-- Received again in the Basic set, an instruction that stores its operand changes nothing, whatever the free value. -/
theorem controllerReceives_again {o : Opc} (ho : o.Readable) {n : OpName} (hn : n.storesOperand = true) {I : Ins10}
    (h : o.has n I = true) {c : Controller} (hc : c.cset = .basic) (j k : Nat) :
    controllerReceives o I j (controllerReceives o I k c) = controllerReceives o I k c := by
  have rw0 := rw_of_has ho.write h
  have name := opName_eq_some (opName_decode10 ho.distinct h)
  cases n with
  | dispctrl =>
    obtain ⟨d, u, b, e⟩ := name
    rw [controllerReceives_dispctrl rw0 e hc]
    exact controllerReceives_dispctrl (c := { c with cattr := ⟨d, u, b⟩ }) rw0 e hc j
  | setddram =>
    obtain ⟨a, e⟩ := name
    rw [controllerReceives_setddram rw0 e hc]
    exact controllerReceives_setddram (c := { c with cac := a }) rw0 e hc j
  | funcsetB | funcsetE | clrdisp | entryR | write => cases hn

/-- The state with the frame of `I` and its settle request once more, and the next free value used up. -/
def oneMoreFrame (I : Ins10) (s : State) : State :=
  { s with events := s.events ++ frameFields I, freeCount := s.freeCount + 1 }

/-- Sent again in the Basic set, an instruction that stores its operand costs its frame and nothing else. -/
theorem sendIns_again {s : State} (ho : s.opc.Readable) {n : OpName} (hn : n.storesOperand = true) {I : Ins10}
    (h : s.opc.has n I = true) (hc : s.ctl.cset = .basic) :
    sendIns I (sendIns I s) = oneMoreFrame I (sendIns I s) := by
  have ctl : controllerReceives (sendIns I s).opc I (sendIns I s).freeCount (sendIns I s).ctl = (sendIns I s).ctl := by
    simpa only [sendIns_opc, sendIns_ctl] using controllerReceives_again ho hn h hc _ _
  rw [sendIns_eq I (sendIns I s), ctl, insEvents_eq_frameFields, oneMoreFrame]

/-- A send in the Basic set, of an instruction that stores its operand and that its own send leaves as it is, costs its
frame and nothing else when repeated. -/
theorem sendInBasic_again {I : State → Ins10} {n : OpName} (hn : n.storesOperand = true)
    (named : ∀ s : State, s.opc.has n (I s) = true) (same : ∀ s, I (sendIns (I s) s) = I s)
    {s : State} (hi : s.initDone = true) (hm : s.iset = s.ctl.cset) (ho : s.opc.Readable) :
    ∃ t, t.attrs = s.attrs ∧ sendInBasic I s = .next t ∧ sendInBasic I t = .next (oneMoreFrame (I t) t) := by
  obtain ⟨r, hs⟩ := selectSet_next .basic hi
  obtain ⟨opc, basic, set, _⟩ := selectBasic_ctl ho hs hm
  obtain ⟨_, _, attrs, _, done, _, _⟩ := selectBasic_next hs
  refine ⟨sendIns (I r) r, (sendIns_attrs _ r).trans attrs, by rw [sendInBasic, hs, andThen_next_eq], ?_⟩
  have stays : selectSet .basic (sendIns (I r) r) = .next (sendIns (I r) r) :=
    selectSet_same ((sendIns_initDone _ r).trans (done.trans hi)) ((sendIns_iset _ r).trans basic)
  rw [sendInBasic, stays, andThen_next_eq, same, sendIns_again (opc ▸ ho) hn (named r) set]

/-- Writing an attribute the value it has changes nothing. -/
theorem writeAttr_again {w : BitVec 2} {v : Bool} {s t : State} (h : t.attrs = (writeAttr w v s).attrs) :
    writeAttr w v t = t := by
  rcases writeAttr_cases w v t with ⟨rfl, e⟩ | ⟨rfl, e⟩ | ⟨rfl, e⟩ | ⟨_, e⟩ <;> rw [e]
  · have value : t.attrD = v := congrArg Attrs.d h
    rw [← value]; rfl
  · have value : t.attrU = v := congrArg Attrs.u h
    rw [← value]; rfl
  · have value : t.attrB = v := congrArg Attrs.b h
    rw [← value]; rfl

/-- Settles O46: the first send leaves the record and the controller in the Basic set, so the repeat is one frame of an
instruction that stores the same operand. -/
theorem repeatLeavesController : Obligations.RepeatLeavesController := by
  intro s hi hm hw hd
  have ho : s.opc.Readable := ⟨hw, hd⟩
  have setaddr (a : BitVec 6) : ∃ t, setAddress a s = .next t ∧
      setAddress a t = .next (oneMoreFrame (setddramWord t.opc a) t) := by
    obtain ⟨t, _, first, again⟩ := sendInBasic_again (I := fun r => setddramWord r.opc a) (n := .setddram) rfl
      (fun r => has_setddramWord r.opc a) (fun r => by rw [sendIns_opc]) hi (hm hi) ho
    exact ⟨t, first, again⟩
  refine ⟨fun w v hw3 => ?_, setaddr, fun p => setaddr (toDdram p)⟩
  have exec_eq (r : State) : exec (.setattr w v) r = resendAttrs (writeAttr w v r) := if_neg hw3
  have done : (writeAttr w v s).initDone = true := (OnlyAppends.writeAttr w v s).initDone.trans hi
  obtain ⟨t, attrs, first, again⟩ := sendInBasic_again (I := fun r => dispWord r.opc r.attrD r.attrU r.attrB)
    (n := .dispctrl) rfl (fun r => has_dispWord r.opc r.attrD r.attrU r.attrB)
    (fun r => by rw [sendIns_opc, sendIns_attrD, sendIns_attrU, sendIns_attrB])
    done (by simpa using hm hi) (by simpa using ho)
  refine ⟨t, (exec_eq s).trans first, ?_⟩
  rw [exec_eq, writeAttr_again attrs]
  exact again

end Sys2Proof.Machine

/-! The command words (R61 to R64): decoding is reading the two fields of the word back as the two fields that the command
is encoded by. -/

namespace Sys2Proof

/-- The operation code and the operand bits of a command (R61, R63); an emitted instruction has none. -/
def Instr.cmdFields : Instr → Option (BitVec 4 × BitVec 10)
  | .send I => some (0, I)
  | .select t => some (1, (0 : BitVec 9) ++ BitVec.ofBool t.toBit)
  | .setattr w v => some (2, (0 : BitVec 7) ++ (w ++ BitVec.ofBool v))
  | .setpos p => some (3, (0 : BitVec 5) ++ p)
  | .setaddr a => some (4, (0 : BitVec 4) ++ a)
  | .wrdata b => some (5, (0 : BitVec 2) ++ b)
  | .clear => some (6, 0)
  | .init => some (7, 0)
  | .funcsetB | .funcsetE | .dispctrl _ _ _ | .clrdisp | .entryR | .setddram _ | .write _ => none

theorem isCommand_iff_cmdFields (i : Instr) : i.isCommand = true ↔ ∃ op arg, i.cmdFields = some (op, arg) := by
  cases i <;> simp [Instr.isCommand, Instr.cmdFields]

/-- A command's word is its operation code over its operand bits (R61, R63). -/
theorem encode_of_cmdFields (o : Opc) {i : Instr} {op : BitVec 4} {arg : BitVec 10}
    (h : i.cmdFields = some (op, arg)) : encode o i = .cmd14 (op ++ arg) := by
  cases i <;> cases h
  case setattr w v =>
    have outer : ((2 : BitVec 4) ++ (0 : BitVec 7) ++ w) ++ BitVec.ofBool v =
      ((2 : BitVec 4) ++ (0 : BitVec 7)) ++ (w ++ BitVec.ofBool v) := BitVec.append_assoc
    exact congrArg Word.cmd14 (outer.trans BitVec.append_assoc)
  case select | setpos | setaddr | wrdata => exact congrArg Word.cmd14 BitVec.append_assoc
  case send | clear | init => rfl

theorem cmdOp_append (op : BitVec 4) (arg : BitVec 10) : cmdOp (op ++ arg) = op := BitVec.extractLsb'_append_eq_left

theorem cmdArg_append (op : BitVec 4) (arg : BitVec 10) : cmdArg (op ++ arg) = arg :=
  BitVec.extractLsb'_append_eq_right

/-- Operand bits whose reserved upper field is zero are the lower field under zeros. -/
theorem zero_append_of_reserved {m n : Nat} {arg : BitVec (m + n)} (h : arg.extractLsb' n m = 0) :
    (0 : BitVec m) ++ arg.extractLsb' 0 n = arg := by
  rw [← h]; exact BitVec.extractLsb'_append_extractLsb'

theorem ofBool_getLsbD_zero {n : Nat} (x : BitVec n) : BitVec.ofBool (x.getLsbD 0) = x.extractLsb' 0 1 := by
  ext k hk
  obtain rfl : k = 0 := by omega
  simp

theorem getLsbD_zero_append_ofBool {n : Nat} (x : BitVec n) (v : Bool) : (x ++ BitVec.ofBool v).getLsbD 0 = v := by
  rw [BitVec.getLsbD_append]; simp

theorem InstrSet.toBit_ofBit (x : Bool) : (InstrSet.ofBit x).toBit = x := by cases x <;> rfl

theorem InstrSet.ofBit_toBit (t : InstrSet) : InstrSet.ofBit t.toBit = t := by cases t <;> rfl

/-- A check of the decoder that answers an instruction has passed. -/
theorem check_passed {p : Prop} [Decidable p] {i j : Instr} {e : IllegalCause}
    (h : (if p then Except.ok i else Except.error e) = .ok j) : p ∧ i = j := by
  split at h <;> cases h
  exact ⟨‹p›, rfl⟩

/-- A right-aligned operand under reserved zeros passes the decoder's check and is read back (R63, R64). -/
theorem check_zero_append {m n : Nat} (x : BitVec n) (f : BitVec n → Instr) :
    (if ((0 : BitVec m) ++ x).extractLsb' n m = 0 then Except.ok (f (((0 : BitVec m) ++ x).extractLsb' 0 n))
      else Except.error IllegalCause.reservedBits) = .ok (f x) := by
  rw [BitVec.extractLsb'_append_eq_left, BitVec.extractLsb'_append_eq_right, if_pos rfl]

/-- A word decodes to a command of its own two fields. -/
theorem cmdFields_of_decode14 {c : Cmd14} {i : Instr} (h : decode14 c = .ok i) :
    i.cmdFields = some (cmdOp c, cmdArg c) := by
  have fields {op : BitVec 4} {arg : BitVec 10} (hop : (cmdOp c).toNat = op.toNat) (harg : arg = cmdArg c) :
      some (op, arg) = some (cmdOp c, cmdArg c) := by rw [BitVec.eq_of_toNat_eq hop, harg]
  simp only [decode14] at h
  split at h
  next hop =>
    cases h
    exact fields hop rfl
  next hop =>
    obtain ⟨hres, rfl⟩ := check_passed h
    refine fields hop (.trans ?_ (zero_append_of_reserved (m := 9) (n := 1) hres))
    rw [InstrSet.toBit_ofBit, ofBool_getLsbD_zero]
  next hop =>
    split at h
    next hres =>
      split at h <;> cases h
      have low : (cmdArg c).extractLsb' 1 2 ++ BitVec.ofBool ((cmdArg c).getLsbD 0) = (cmdArg c).extractLsb' 0 3 := by
        rw [ofBool_getLsbD_zero]
        exact BitVec.extractLsb'_append_extractLsb'_eq_extractLsb' rfl
      refine fields hop (.trans ?_ (zero_append_of_reserved (m := 7) (n := 3) hres))
      rw [low]
    next => cases h
  next hop =>
    obtain ⟨hres, rfl⟩ := check_passed h
    exact fields hop (zero_append_of_reserved (m := 5) (n := 5) hres)
  next hop =>
    obtain ⟨hres, rfl⟩ := check_passed h
    exact fields hop (zero_append_of_reserved (m := 4) (n := 6) hres)
  next hop =>
    obtain ⟨hres, rfl⟩ := check_passed h
    exact fields hop (zero_append_of_reserved (m := 2) (n := 8) hres)
  next hop =>
    obtain ⟨harg, rfl⟩ := check_passed h
    exact fields hop harg.symm
  next hop =>
    obtain ⟨harg, rfl⟩ := check_passed h
    exact fields hop harg.symm
  next => cases h

/-- A word made of the two fields of a well-formed command decodes to it. -/
theorem decode14_of_cmdFields {c : Cmd14} {i : Instr} (hf : i.cmdFields = some (cmdOp c, cmdArg c))
    (hwf : i.wf = true) : decode14 c = .ok i := by
  unfold decode14
  generalize cmdOp c = op at hf ⊢
  generalize cmdArg c = arg at hf ⊢
  cases i <;> cases hf
  case send | clear | init => rfl
  case setpos p => exact check_zero_append p .setpos
  case setaddr a => exact check_zero_append a .setaddr
  case wrdata b => exact check_zero_append b .wrdata
  case select t =>
    have bit : ((0 : BitVec 9) ++ BitVec.ofBool t.toBit).getLsbD 0 = t.toBit := getLsbD_zero_append_ofBool ..
    refine (if_pos BitVec.extractLsb'_append_eq_left).trans ?_
    exact congrArg (fun t => Except.ok (Instr.select t)) ((congrArg InstrSet.ofBit bit).trans t.ofBit_toBit)
  case setattr w v =>
    have sel : ((0 : BitVec 7) ++ (w ++ BitVec.ofBool v)).extractLsb' 1 2 = w :=
      (BitVec.extractLsb'_append_eq_of_add_le (by decide)).trans BitVec.extractLsb'_append_eq_left
    have bit : ((0 : BitVec 7) ++ (w ++ BitVec.ofBool v)).getLsbD 0 = v :=
      BitVec.getLsbD_append.trans (getLsbD_zero_append_ofBool w v)
    have hw : w ≠ badSelectorCode := by simpa [Instr.wf] using hwf
    refine (if_pos BitVec.extractLsb'_append_eq_left).trans ((if_neg (sel.trans_ne hw)).trans ?_)
    exact congrArg₂ (fun w v => Except.ok (Instr.setattr w v)) sel bit

/-- What a word decodes to: the well-formed command of its two fields (R63, R64). -/
theorem decode14_eq_ok_iff {c : Cmd14} {i : Instr} :
    decode14 c = .ok i ↔ i.cmdFields = some (cmdOp c, cmdArg c) ∧ i.wf = true :=
  ⟨fun h => ⟨cmdFields_of_decode14 h, wf_of_decodeWord (o := Opc.ds) (w := .cmd14 c) h⟩,
    fun ⟨hf, hwf⟩ => decode14_of_cmdFields hf hwf⟩

/-- Settles O1: the word's two fields are the command's own. -/
theorem decodeEncodeCommands : Obligations.DecodeEncodeCommands := by
  intro o i hcmd hwf
  obtain ⟨op, arg, hf⟩ := (isCommand_iff_cmdFields i).1 hcmd
  rw [encode_of_cmdFields o hf]
  exact decode14_eq_ok_iff.2 ⟨by rw [cmdOp_append, cmdArg_append, hf], hwf⟩

/-- Settles O3: a word is its two fields put together, and those are the fields that its command is encoded by. -/
theorem encodeDecodeCommands : Obligations.EncodeDecodeCommands := by
  intro o c i h
  obtain ⟨hf, hwf⟩ := decode14_eq_ok_iff.1 h
  refine ⟨(isCommand_iff_cmdFields i).2 ⟨_, _, hf⟩, hwf, ?_⟩
  rw [encode_of_cmdFields o hf, cmdOp_append_cmdArg]

theorem rowOf_mem {i : Instr} {r : CmdRow} (h : Laws.rowOf i = some r) : r ∈ cmdRows := by
  cases i with
  | send | select | setattr | setpos | setaddr | wrdata | clear | init => exact List.mem_of_getElem? h
  | funcsetB | funcsetE | dispctrl | clrdisp | entryR | setddram | write => cases h

/-- Every instruction's encoding lies in its row of the table. -/
theorem rowFit (i : Instr) : Laws.RowFit.Statement i := by
  cases i with
  | send I => exact Laws.RowFit.send I
  | select t => exact Laws.RowFit.select t
  | setattr w v => exact Laws.RowFit.setattr w v
  | setpos p => exact Laws.RowFit.setpos p
  | setaddr a => exact Laws.RowFit.setaddr a
  | wrdata b => exact Laws.RowFit.wrdata b
  | clear => exact Laws.RowFit.clear
  | init => exact Laws.RowFit.init
  | funcsetB => exact Laws.RowFit.funcsetB
  | funcsetE => exact Laws.RowFit.funcsetE
  | dispctrl d u b => exact Laws.RowFit.dispctrl d u b
  | clrdisp => exact Laws.RowFit.clrdisp
  | entryR => exact Laws.RowFit.entryR
  | setddram a => exact Laws.RowFit.setddram a
  | write b => exact Laws.RowFit.write b

/-- A word that encodes an instruction selects a row of R63. -/
theorem selects_of_encode {o : Opc} {i : Instr} {c : Cmd14} (h : encode o i = .cmd14 c) :
    ∃ r ∈ cmdRows, r.selects c = true := by
  have fit := rowFit i o
  rw [h] at fit
  cases hr : Laws.rowOf i with
  | none => rw [hr] at fit; exact fit.elim
  | some r => rw [hr] at fit; exact ⟨r, rowOf_mem hr, fit⟩

/-- The two words of SETATTR with selector 3 are rejected (R64, R173). -/
theorem decode14_badSelector {c : Cmd14} (h : c &&& 0x3FFE = 0x0806) : decode14 c = .error .badSelector := by
  have hop : cmdOp c = 2 := extractLsb'_of_selects (start := 10) (len := 4) h rfl
  have hres := cmdArg_of_selects (start := 3) (len := 7) h (by decide) rfl
  have hsel := cmdArg_of_selects (start := 1) (len := 2) h (by decide) rfl
  simp [decode14, hop, hres, hsel]

/-- Settles O4: a decoded word is the word of a command, which lies in its row, and selector 3 is rejected. -/
theorem wordDecodesExactlyWhenLegal : Obligations.WordDecodesExactlyWhenLegal := by
  intro c
  refine ⟨fun ⟨i, h⟩ => ?_, decode14_of_legalWord⟩
  obtain ⟨_, _, henc⟩ := encodeDecodeCommands Opc.ds c i h
  have row : cmdRows.any (fun r => r.selects c) = true := List.any_eq_true.2 (selects_of_encode henc)
  have sel : c &&& 0x3FFE ≠ 0x0806 := fun e => by rw [decode14_badSelector e] at h; cases h
  rw [legalWord, row, beq_eq_false_iff_ne.2 sel]
  rfl

end Sys2Proof

/-! Instructions as 10-bit values (R65 to R72), and OPC_DS and OPC_DOC (R66, R67). -/

namespace Sys2Proof

/-- With `W_data` the data byte is bits 7:0 of a data write (R72). -/
theorem setWidth_writeWord {o : Opc} (h : o.wData = true) (b : Byte) : (writeWord o b).setWidth 8 = b := by
  rw [writeWord, beq_iff_eq.1 h, BitVec.setWidth_or]
  simp

/-- A data write decodes to the byte it was built from (R72). -/
theorem decode10_writeWord {o : Opc} (hd : o.WDistinct) (hw : o.wData = true) (b : Byte) :
    decode10 o (writeWord o b) = .write b := by
  have named := has_writeWord o b
  obtain ⟨b', e⟩ := opName_eq_some (n := .write) (opName_decode10 hd named)
  have same := encode_decode10 named
  rw [e] at same
  rw [e, ← setWidth_writeWord hw b', show writeWord o b' = writeWord o b from Word.st7920.inj same,
    setWidth_writeWord hw b]

/-- Settles O2: a value's name is the one value set that holds it, and each operand is read back from its bits. -/
theorem decodeEncodeEmitted : Obligations.DecodeEncodeEmitted := by
  intro o i hd hp ha hw hi
  have ok {I : Ins10} {j : Instr} (h : decode10 o I = j) : decodeWord o (.st7920 I) = .ok j := congrArg Except.ok h
  cases i <;> cases hi
  case funcsetB => exact ok (decode10_funcsetWord hd).1
  case funcsetE => exact ok (decode10_funcsetWord hd).2
  case dispctrl d u b => exact ok (decode10_dispWord hd hp d u b)
  case clrdisp => exact ok (opName_eq_some (n := .clrdisp) (opName_decode10 hd (has_clear o)))
  case entryR => exact ok (opName_eq_some (n := .entryR) (opName_decode10 hd (has_entryRight o)))
  case setddram a => exact ok (decode10_setddramWord hd ha a)
  case write b => exact ok (decode10_writeWord hd hw b)

/-- Settles O6: all but `W_distinct` are decided on fixed values, which `withDoc` puts over every OPC. -/
theorem opcInstances : Obligations.OpcInstances := by
  refine ⟨⟨by decide, by decide, by decide, by decide, by decide, ds_distinct⟩, fun o => ⟨?_, ?_⟩⟩
  · show ((0x020 : Ins10) &&& 0x03F == 0) = false
    decide
  · show ((0x200 : Ins10) == 0x200) = true
    decide

/-- Settles O7: OPC_DOC's base sets bit 5 itself, so an address with bit 5 set loses it. -/
theorem setddramOperand : Obligations.SetddramOperand := by
  refine ⟨fun o a h => ?_, fun o => ?_⟩
  · exact (BitVec.setWidth_eq_extractLsb' (by decide)).symm.trans (setWidth_setddramWord h a)
  · show ∀ a : BitVec 6, 32 ≤ a.toNat → (0x020 : Ins10) ||| a.setWidth 10 = 0x020 ||| (a - 32).setWidth 10
    decide

/-- Settles O8: `W_disp` keeps the low three bits of the base clear, and the operand has no others. -/
theorem displayControlBits : Obligations.DisplayControlBits := by
  intro o d u b h
  obtain ⟨h2, h1, h0⟩ := dispWord_bits h d u b
  constructor
  · refine BitVec.eq_of_getLsbD_eq fun k hk => ?_
    rw [BitVec.getLsbD_append, BitVec.getLsbD_append, BitVec.getLsbD_extractLsb']
    interval_cases k
    · simpa using h0
    · simpa using h1
    · simpa using h2
  · have operand : ∀ d u b : Bool,
        ((bit10 d <<< 2) ||| ((bit10 u <<< 1) ||| bit10 b)).extractLsb' 3 7 = 0 := by decide
    rw [dispWord, BitVec.or_assoc, BitVec.or_assoc, BitVec.extractLsb'_or, operand]
    exact BitVec.or_zero

/-- Settles O5: fifteen fixed words, evaluated. -/
theorem wordsOfTheSpecDecode : Obligations.WordsOfTheSpecDecode := by
  unfold Obligations.WordsOfTheSpecDecode
  decide

end Sys2Proof

/-! The codec's frames, and the event list as a stream of whole instructions (R73 to R75, R91, R92). -/

namespace Sys2Proof.Machine

theorem sendIns_eq_afterSend (I : Ins10) (s : State) : sendIns I s = afterSend s I := by
  rw [sendIns_eq, insEvents_eq_frameFields, afterSend]

/-- Settles O26: every emitted instruction is the send of its value. -/
theorem emittedInstructionsAreSent : Obligations.EmittedInstructionsAreSent := by
  have sent (I : Ins10) (s : State) : Host.Outcome.next (sendIns I s) = (.next (afterSend s I) : Answer) :=
    congrArg Host.Outcome.next (sendIns_eq_afterSend I s)
  exact ⟨fun s => sent _ s, fun s => sent _ s, fun _ _ _ s => sent _ s, fun s => sent _ s, fun s => sent _ s,
    fun _ s => sent _ s, fun _ s => sent _ s⟩

/-- Settles O43: each output is made of the bits it shows. -/
theorem outputsShowState : Obligations.OutputsShowState := by
  intro s
  have iset : (stIset s = 0 ↔ s.iset = .basic) ∧ (stIset s = 1 ↔ s.iset = .extended) := by
    rw [stIset]
    cases s.iset <;> decide
  have err : stErr s = 1 ↔ s.err = true := by
    rw [stErr]
    cases s.err <;> decide
  have attrs : (stAttr s).getLsbD 2 = s.attrD ∧ (stAttr s).getLsbD 1 = s.attrU ∧ (stAttr s).getLsbD 0 = s.attrB := by
    rw [stAttr]
    cases s.attrD <;> cases s.attrU <;> cases s.attrB <;> decide
  obtain ⟨basic, extended⟩ := iset
  obtain ⟨d, u, b⟩ := attrs
  exact ⟨basic, extended, d, u, b, err⟩

/-- The three bytes of an instruction, field by field (R73). -/
theorem frameBytes_eq_fields (I : Ins10) :
    frameByte1 I = (0b11111 : BitVec 5) ++ I.extractLsb' 8 1 ++ I.extractLsb' 9 1 ++ (0 : BitVec 1) ∧
      frameByte2 I = I.extractLsb' 4 4 ++ (0 : BitVec 4) ∧ frameByte3 I = I.extractLsb' 0 4 ++ (0 : BitVec 4) := by
  have h := insEvents_eq_frameFields I
  simp only [insEvents, frameFields, List.cons.injEq, Event.tx.injEq] at h
  obtain ⟨byte1, byte2, byte3, _⟩ := h
  exact ⟨byte1, byte2, byte3⟩

/-- A valid frame, field by field (R75). -/
theorem isFrame_iff {b1 b2 b3 : Byte} : isFrame b1 b2 b3 = true ↔
    b1 = (0b11111 : BitVec 5) ++ b1.extractLsb' 2 1 ++ b1.extractLsb' 1 1 ++ (0 : BitVec 1) ∧
      b2 = b2.extractLsb' 4 4 ++ (0 : BitVec 4) ∧ b3 = b3.extractLsb' 4 4 ++ (0 : BitVec 4) := by
  have first : ∀ b : Byte, b &&& 0xF9 = 0xF8 ↔
      b = (0b11111 : BitVec 5) ++ b.extractLsb' 2 1 ++ b.extractLsb' 1 1 ++ (0 : BitVec 1) := by decide
  have later : ∀ b : Byte, b &&& 0x0F = 0 ↔ b = b.extractLsb' 4 4 ++ (0 : BitVec 4) := by decide
  rw [← first, ← later, ← later]
  simp only [isFrame, Bool.and_eq_true, beq_iff_eq, and_assoc]

/-- The fields of an instruction's bytes (R73). -/
theorem extractLsb'_frameBytes (I : Ins10) :
    (frameByte1 I).extractLsb' 2 1 = I.extractLsb' 8 1 ∧ (frameByte1 I).extractLsb' 1 1 = I.extractLsb' 9 1 ∧
      (frameByte2 I).extractLsb' 4 4 = I.extractLsb' 4 4 ∧ (frameByte3 I).extractLsb' 4 4 = I.extractLsb' 0 4 := by
  obtain ⟨byte1, byte2, byte3⟩ := frameBytes_eq_fields I
  rw [byte1, byte2, byte3]
  refine ⟨?_, ?_, BitVec.extractLsb'_append_eq_left, BitVec.extractLsb'_append_eq_left⟩
  · exact (BitVec.extractLsb'_append_eq_of_le (by decide)).trans
      ((BitVec.extractLsb'_append_eq_of_le (by decide)).trans BitVec.extractLsb'_append_eq_right)
  · exact (BitVec.extractLsb'_append_eq_of_le (by decide)).trans BitVec.extractLsb'_append_eq_right

/-- The fields of what three bytes read back as (R75). -/
theorem extractLsb'_unframe (b1 b2 b3 : Byte) :
    (unframe b1 b2 b3).extractLsb' 8 1 = b1.extractLsb' 2 1 ∧ (unframe b1 b2 b3).extractLsb' 9 1 = b1.extractLsb' 1 1 ∧
      (unframe b1 b2 b3).extractLsb' 4 4 = b2.extractLsb' 4 4 ∧
      (unframe b1 b2 b3).extractLsb' 0 4 = b3.extractLsb' 4 4 := by
  have flags {start : Nat} (h : 8 ≤ start) : (unframe b1 b2 b3).extractLsb' start 1 =
      (b1.extractLsb' 1 1 ++ b1.extractLsb' 2 1).extractLsb' (start - 4 - 4) 1 :=
    (BitVec.extractLsb'_append_eq_of_le (by omega)).trans (BitVec.extractLsb'_append_eq_of_le (by omega))
  refine ⟨?_, ?_, ?_, BitVec.extractLsb'_append_eq_right⟩
  · exact (flags (by decide)).trans BitVec.extractLsb'_append_eq_right
  · exact (flags (by decide)).trans BitVec.extractLsb'_append_eq_left
  · exact (BitVec.extractLsb'_append_eq_of_le (by decide)).trans BitVec.extractLsb'_append_eq_right

/-- An instruction is its own fields put together (R65). -/
theorem fields_append (I : Ins10) :
    I.extractLsb' 9 1 ++ I.extractLsb' 8 1 ++ I.extractLsb' 4 4 ++ I.extractLsb' 0 4 = I := by
  have top : I.extractLsb' 9 1 ++ I.extractLsb' 8 1 = I.extractLsb' 8 2 :=
    BitVec.extractLsb'_append_extractLsb'_eq_extractLsb' rfl
  have upper : I.extractLsb' 8 2 ++ I.extractLsb' 4 4 = I.extractLsb' 4 6 :=
    BitVec.extractLsb'_append_extractLsb'_eq_extractLsb' rfl
  rw [top, upper]
  exact BitVec.extractLsb'_append_extractLsb'

/-- The three bytes of an instruction are a valid frame that reads back as it (R75). -/
theorem unframe?_frameBytes (I : Ins10) : unframe? (frameByte1 I) (frameByte2 I) (frameByte3 I) = some I := by
  obtain ⟨rwBit, rs, high, low⟩ := extractLsb'_frameBytes I
  have valid : isFrame (frameByte1 I) (frameByte2 I) (frameByte3 I) = true := by
    rw [isFrame_iff, rwBit, rs, high, low]
    exact frameBytes_eq_fields I
  rw [unframe?, if_pos valid, unframe, rwBit, rs, high, low, fields_append]

/-- A valid frame is the three bytes of what it reads back as (R75). -/
theorem frameBytes_unframe {b1 b2 b3 : Byte} (h : isFrame b1 b2 b3 = true) :
    frameByte1 (unframe b1 b2 b3) = b1 ∧ frameByte2 (unframe b1 b2 b3) = b2 ∧ frameByte3 (unframe b1 b2 b3) = b3 := by
  obtain ⟨valid1, valid2, valid3⟩ := isFrame_iff.1 h
  obtain ⟨byte1, byte2, byte3⟩ := frameBytes_eq_fields (unframe b1 b2 b3)
  obtain ⟨rwBit, rs, high, low⟩ := extractLsb'_unframe b1 b2 b3
  rw [byte1, byte2, byte3, rwBit, rs, high, low]
  exact ⟨valid1.symm, valid2.symm, valid3.symm⟩

/-- Settles O9: a frame and its instruction have the same four fields. -/
theorem frameRoundTrip : Obligations.FrameRoundTrip := by
  refine ⟨unframe?_frameBytes, fun b1 b2 b3 I h => ?_⟩
  rw [unframe?] at h
  split at h <;> cases h
  exact frameBytes_unframe ‹_›

/-- A well-framed stream goes on being one when a well-framed part is appended. -/
theorem wellFramed_of_append {s t : State} {es : List Event} {items : List StreamItem} (h : WellFramed s = true)
    (ho : t.opc = s.opc) (he : t.events = s.events ++ es) (hr : readBack es = some items)
    (hl : longsFollowClear s.opc false items = true) : WellFramed t = true := by
  unfold WellFramed at h ⊢
  split at h
  next xs hx =>
    rw [he, ho, readBack_append hx hr]
    exact longsFollowClear_append h hl
  next => cases h

theorem readBack_insEvents_append (I : Ins10) {es : List Event} {items : List StreamItem}
    (h : readBack es = some items) : readBack (insEvents I ++ es) = some (.ins I :: items) := by
  simp [insEvents, readBack, unframe?_frameBytes, h]

theorem wellFramed_sendIns (I : Ins10) {s : State} (h : WellFramed s = true) : WellFramed (sendIns I s) = true :=
  wellFramed_of_append h (sendIns_opc I s) (sendIns_events I s) (readBack_insEvents_append I rfl) rfl

/-- The long settle of clear display stands right after its instruction (R131). -/
theorem wellFramed_clearDisplay {s : State} (h : WellFramed s = true) : WellFramed (clearDisplay s) = true := by
  have events : (clearDisplay s).events = s.events ++ (insEvents s.opc.clear ++ [.dly .long]) := by
    simp [clearDisplay, longSettle_eq]
  have items : readBack (insEvents s.opc.clear ++ [.dly .long]) = some [.ins s.opc.clear, .long] :=
    readBack_insEvents_append s.opc.clear rfl
  refine wellFramed_of_append h (clearDisplay_opc s) events items ?_
  simp [longsFollowClear]

theorem wellFramed_writeAttr (w : BitVec 2) (v : Bool) (s : State) : WellFramed (writeAttr w v s) = WellFramed s := by
  rcases writeAttr_cases w v s with ⟨_, e⟩ | ⟨_, e⟩ | ⟨_, e⟩ | ⟨_, e⟩ <;> rw [e] <;> rfl

theorem wellFramed_selectSet {u : InstrSet} {s t : State} (h : WellFramed s = true) (hs : selectSet u s = .next t) :
    WellFramed t = true := by
  rcases selectSet_cases u s with ⟨_, e⟩ | ⟨_, _, e⟩ | ⟨_, _, e⟩ <;> rw [e] at hs <;> cases hs
  · exact h
  · exact wellFramed_sendIns (funcsetWord s.opc u) h

theorem wellFramed_initResult {s : State} (h : WellFramed s = true) : WellFramed (initResult s) = true := by
  have basic : WellFramed (initForceBasic s) = true := wellFramed_sendIns (s := s.setIset .basic) _ h
  have attrs (r : State) (hr : WellFramed r = true) : WellFramed (initDefaultAttrs r) = true :=
    wellFramed_sendIns (s := ((r.setAttrD true).setAttrU true).setAttrB true) _ hr
  have entry (r : State) (hr : WellFramed r = true) : WellFramed (initEntryMode r) = true :=
    wellFramed_sendIns r.opc.entryRight hr
  have done (r : State) : WellFramed (r.setInitDone true) = WellFramed r := rfl
  rw [initResult, done]
  exact entry _ (wellFramed_clearDisplay (attrs _ basic))

/-- Every instruction keeps the event list a well-framed stream. -/
theorem exec_keeps_wellFramed {i : Instr} {s t : State} (hw : WellFramed s = true) (h : exec i s = .next t) :
    WellFramed t = true := by
  rcases exec_next_cases h with ⟨u, _, _, _, rfl⟩ | ⟨v, _, rfl⟩ | ⟨I, rfl, _⟩ | ⟨u, _, _, _, rfl⟩ |
    ⟨w, v, r, _, _, hs, rfl⟩ | ⟨a, r, _, hs, rfl⟩ | ⟨r, _, hs, rfl⟩ | ⟨_, rfl⟩
  · exact hw
  · exact hw
  · exact wellFramed_sendIns I hw
  · exact wellFramed_sendIns (funcsetWord s.opc u) hw
  · exact wellFramed_sendIns _ (wellFramed_selectSet ((wellFramed_writeAttr w v s).trans hw) hs)
  · exact wellFramed_sendIns _ (wellFramed_selectSet hw hs)
  · exact wellFramed_clearDisplay (wellFramed_selectSet hw hs)
  · exact wellFramed_initResult hw

/-- Settles O35: over the ways a step reaches a next state. -/
theorem stepKeepsWellFramed : Obligations.StepKeepsWellFramed := by
  intro s t hw h
  rcases step_cases s with ⟨_, e⟩ | ⟨w, rest, i, _, _, e⟩ | ⟨w, rest, _, _, _, e⟩ <;> rw [e] at h
  · cases h; exact hw
  · exact exec_keeps_wellFramed (s := s.setCmds rest) hw h
  · cases h; exact hw

end Sys2Proof.Machine

/-! SEND and the codec's operand presented in its own format: both are the one operation `sendIns` (R90, R93, R96). -/

namespace Sys2Proof.Machine

theorem exec_send (I : Ins10) (s : State) : exec (.send I) s = .next (sendIns I s) := rfl

/-- Every operand of SEND makes a legal word (R63, R90). -/
theorem decodeWord_send (o : Opc) (I : Ins10) : decodeWord o (.cmd14 ((0 : BitVec 4) ++ I)) = .ok (.send I) :=
  decodeEncodeCommands o (.send I) rfl rfl

/-- Settles O10: SEND is the codec's operation, whose result is the frame's four fields and the ghost state. -/
theorem sendEmitsFrame : Obligations.SendEmitsFrame :=
  ⟨decodeWord_send, fun I s => (exec_send I s).trans (congrArg Host.Outcome.next (sendIns_eq_afterSend I s))⟩

/-- An emitted instruction is the codec's sending of its value under the state's OPC (R68 to R72, R96). -/
theorem exec_of_encode_st7920 {i : Instr} {I : Ins10} {s : State} (h : encode s.opc i = .st7920 I) :
    exec i s = .next (sendIns I s) := by
  cases i with
  | send | select | setattr | setpos | setaddr | wrdata | clear | init => cases h
  | funcsetB | funcsetE | dispctrl | clrdisp | entryR | setddram | write => cases h; rfl

/-- Whatever name OPC gives a value, and where it gives none, running it is sending the value (R93). -/
theorem exec_decode10 (I : Ins10) (s : State) : exec (decode10 s.opc I) s = .next (sendIns I s) := by
  rcases decode10_cases s.opc I with unnamed | ⟨_, henc⟩
  · rw [unnamed, exec_send]
  · exact exec_of_encode_st7920 henc

/-- A legal word put in front of the host's list runs on the state with the rest of the list (R47). -/
theorem step_presented {s : State} {w : Word} {i : Instr} (h : decodeWord s.opc w = .ok i) (rest : List Word) :
    step { s with cmds := w :: rest } = exec i (s.setCmds rest) :=
  step_decoded (s := s.setCmds (w :: rest)) rfl h

/-- Settles O27: both words are consumed alike, and both instructions they decode to are the send of the value. -/
theorem emittedWordStepsAsSend : Obligations.EmittedWordStepsAsSend := by
  intro I s rest
  calc step { s with cmds := .st7920 I :: rest }
      = exec (decode10 s.opc I) (s.setCmds rest) := step_presented rfl rest
    _ = .next (sendIns I (s.setCmds rest)) := exec_decode10 I (s.setCmds rest)
    _ = exec (.send I) (s.setCmds rest) := (exec_send I (s.setCmds rest)).symm
    _ = step { s with cmds := .cmd14 ((0 : BitVec 4) ++ I) :: rest } :=
      (step_presented (decodeWord_send s.opc I) rest).symm

end Sys2Proof.Machine

/-! The mode tracker: SELECT records its target, and sends the function set only when the target differs from the
record (41_mode_tracker.md). -/

namespace Sys2Proof

/-- A field inside the operand bits, read off the whole word (R61). -/
theorem extractLsb'_cmdArg (c : Cmd14) {start len : Nat} (h : start + len ≤ 10) :
    (cmdArg c).extractLsb' start len = c.extractLsb' start len := BitVec.extractLsb'_extractLsb'_of_le h

end Sys2Proof

namespace Sys2Proof.Machine

theorem exec_select (u : InstrSet) (s : State) : exec (.select u) s = selectSet u s := rfl

/-- A step that answers a next state is the first of a run. -/
theorem run_succ_of_step {s r : State} (h : step s = .next r) (k : Nat) :
    Host.Core.run core (k + 1) s = Host.Core.run core k r := by
  have h : core.step s = .next r := h
  simp only [Host.Core.run, h]

/-- SELECT leaves its target recorded (R100, R103). -/
theorem selectSet_iset {u : InstrSet} {s r : State} (h : selectSet u s = .next r) : r.iset = u := by
  rcases selectSet_cases u s with ⟨_, e⟩ | ⟨_, recorded, e⟩ | ⟨_, _, e⟩ <;> rw [e] at h <;> cases h
  · exact recorded
  · rfl

/-- SELECT answers a next state only once an INIT has completed (R175). -/
theorem initDone_of_selectSet {u : InstrSet} {s r : State} (h : selectSet u s = .next r) : s.initDone = true := by
  by_contra uninit
  rw [selectSet_uninitialised u (Bool.eq_false_of_not_eq_true uninit)] at h
  cases h

/-- What `t` has appended to the events of `s` reads back as `n` function sets of its OPC, and nothing else. -/
def EmitsFuncsets (n : Nat) (s t : State) : Prop :=
  ∃ (es : List Event) (items : List StreamItem), t.events = s.events ++ es ∧ readBack es = some items ∧
    items.length = n ∧ ∀ x ∈ items, x = .ins s.opc.fsBasic ∨ x = .ins s.opc.fsExt

namespace EmitsFuncsets

theorem none {s t : State} (h : t.events = s.events) : EmitsFuncsets 0 s t :=
  ⟨[], [], by simp [h], rfl, rfl, by simp⟩

theorem sendIns (u : InstrSet) (s : State) : EmitsFuncsets 1 s (sendIns (funcsetWord s.opc u) s) := by
  refine ⟨_, [.ins (funcsetWord s.opc u)], sendIns_events _ s, readBack_insEvents_append (es := []) _ rfl, rfl, ?_⟩
  cases u <;> simp [funcsetWord]

theorem trans {m n : Nat} {s t r : State} (ho : t.opc = s.opc) (h : EmitsFuncsets m s t) (g : EmitsFuncsets n t r) :
    EmitsFuncsets (m + n) s r := by
  obtain ⟨es, xs, hes, hxs, rfl, sets⟩ := h
  obtain ⟨fs, ys, hfs, hys, rfl, sets'⟩ := g
  refine ⟨es ++ fs, xs ++ ys, by rw [hfs, hes, List.append_assoc], readBack_append hxs hys, List.length_append, ?_⟩
  exact List.forall_mem_append.2 ⟨sets, ho ▸ sets'⟩

/-- SELECT emits one function set when its target differs from the record, else nothing (R100). -/
theorem selectSet {u : InstrSet} {s r : State} (h : selectSet u s = .next r) :
    EmitsFuncsets (if s.iset = u then 0 else 1) s r := by
  rcases selectSet_cases u s with ⟨_, e⟩ | ⟨_, recorded, e⟩ | ⟨_, other, e⟩ <;> rw [e] at h <;> cases h
  · rw [if_pos recorded]; exact none rfl
  · rw [if_neg other]; exact sendIns u s

end EmitsFuncsets

/-- The word of a SELECT runs as its command on the rest of the host's list (R47, R63). -/
theorem step_select {u : InstrSet} {s : State} {rest : List Word} (hc : s.cmds = encode s.opc (.select u) :: rest) :
    step s = selectSet u (s.setCmds rest) :=
  step_decoded hc (decodeEncodeCommands s.opc (.select u) rfl rfl)

/-- A run of SELECT commands ends, and it has emitted a function set for each change of the record (R102). -/
theorem run_selects (ts : List InstrSet) {s : State} (hi : s.initDone = true)
    (hc : s.cmds = ts.map fun u => encode s.opc (.select u)) :
    ∃ t, Host.Core.run core ts.length s = .next t ∧ EmitsFuncsets (switches s.iset ts) s t := by
  induction ts generalizing s with
  | nil => exact ⟨s, rfl, .none rfl⟩
  | cons u ts ih =>
    obtain ⟨r, hr⟩ := selectSet_next u (s := s.setCmds (ts.map fun u => encode s.opc (.select u))) hi
    obtain ⟨_, cmds, opc, done⟩ := OnlyAppends.selectSet hr
    have opc : r.opc = s.opc := opc
    have first : EmitsFuncsets (if s.iset = u then 0 else 1) s r := (EmitsFuncsets.selectSet hr :)
    obtain ⟨t, run, others⟩ := ih (done.trans hi) (by rw [opc]; exact cmds)
    rw [selectSet_iset hr] at others
    exact ⟨t, (run_succ_of_step ((step_select hc).trans hr) _).trans run, first.trans opc others⟩

/-- Settles O13, by induction on the targets: the set recorded after a SELECT is its target. -/
theorem selectCountsSwitches : Obligations.SelectCountsSwitches := by
  intro ts s hi hc
  obtain ⟨t, run, es, items, events, read, count, sets⟩ := run_selects ts hi hc
  exact ⟨t, es, items, run, events, read, count, sets⟩

/-- Settles O11: the three cases of the tracker's operation, and the decoder's check of SELECT's reserved bits. -/
theorem selectMeaning : Obligations.SelectMeaning := by
  refine ⟨fun t s hi ht => selectSet_same hi ht, fun t s hi ht => ?_, fun t s hi => selectSet_uninitialised t hi,
    fun c hop hres => ?_⟩
  · rw [exec_select, selectSet_other hi ht, sendIns_eq_afterSend]
    cases t <;> rfl
  · rw [← extractLsb'_cmdArg c (by decide)] at hres
    simp only [decode14, hop]
    exact if_neg hres

/-- Settles O12: the first SELECT leaves its target recorded, so the second finds nothing to do. -/
theorem selectIsIdempotent : Obligations.SelectIsIdempotent := by
  intro t s s' h
  have done : s'.initDone = true := (OnlyAppends.selectSet h).initDone.trans (initDone_of_selectSet h)
  exact selectSet_same done (selectSet_iset h)

end Sys2Proof.Machine

/-! The display-address translator: the middle two quadrants of 8 positions change places (42_address_translator.md,
R110 to R113). -/

namespace Sys2Proof.Machine

/-- The translator's three ranges (R110) as arithmetic. -/
def swapMiddle (n : Nat) : Nat := if n ≤ 7 ∨ 24 ≤ n then n else if n ≤ 15 then n + 8 else n - 8

theorem swapMiddle_lt {n : Nat} (h : n < 32) : swapMiddle n < 32 := by
  unfold swapMiddle; split_ifs <;> omega

theorem swapMiddle_swapMiddle (n : Nat) : swapMiddle (swapMiddle n) = n := by
  unfold swapMiddle; split_ifs <;> omega

theorem swapMiddle_mod_eight (n : Nat) : swapMiddle n % 8 = n % 8 := by
  unfold swapMiddle; split_ifs <;> omega

/-- The sequence of addresses breaks after the last position of each quadrant and nowhere else (R113). -/
theorem swapMiddle_succ_eq_iff {n : Nat} (h : n + 1 < 32) : swapMiddle (n + 1) = swapMiddle n + 1 ↔ n % 8 ≠ 7 := by
  unfold swapMiddle; split_ifs <;> omega

/-- The 6-bit sum and difference of the translator's ranges do not wrap (R110). -/
theorem toDdram_toNat (p : BitVec 5) : (toDdram p).toNat = swapMiddle p.toNat := by
  have wide : (p.setWidth 6).toNat = p.toNat := BitVec.toNat_setWidth_of_le (by decide)
  unfold toDdram swapMiddle
  split_ifs
  · exact wide
  · rw [BitVec.toNat_add_of_lt (by rw [wide]; change _ + 8 < 64; omega), wide]; rfl
  · rw [BitVec.toNat_sub_of_le (by rw [BitVec.le_def, wide]; change 8 ≤ _; omega), wide]; rfl

/-- Every natural below 32 is a position and has an address (R112). -/
theorem exists_toDdramNat {p : Nat} (h : p < 32) : ∃ a, toDdramNat p = some a ∧ a.toNat = swapMiddle p := by
  refine ⟨toDdram (BitVec.ofNat 5 p), if_pos h, ?_⟩
  rw [toDdram_toNat, BitVec.toNat_ofNat, Nat.mod_eq_of_lt h]

/-- The translator over the naturals: its domain and its value (R112). -/
theorem toDdramNat_eq_some_iff {p : Nat} {a : BitVec 6} : toDdramNat p = some a ↔ p < 32 ∧ a.toNat = swapMiddle p := by
  by_cases h : p < 32
  · obtain ⟨c, answer, value⟩ := exists_toDdramNat h
    rw [answer, ← value, Option.some_inj, BitVec.toNat_inj, eq_comm, and_iff_right h]
  · simp [toDdramNat, h]

/-- Two fields side by side: the upper one counts in units of the lower one's range. -/
theorem toNat_append_eq_mul_add {m n : Nat} (x : BitVec m) (y : BitVec n) :
    (x ++ y).toNat = x.toNat * 2 ^ n + y.toNat := by
  rw [BitVec.toNat_append, ← Nat.shiftLeft_add_eq_or_of_lt y.isLt, Nat.shiftLeft_eq]

/-- Settles O17: bit 3 of the position weighs 16 in the address, bit 4 weighs 8, and the three low bits are kept. -/
theorem translatorSwapsBits : Obligations.TranslatorSwapsBits := by
  intro p
  have small : p.toNat < 32 := p.isLt
  have weights : ((0 : BitVec 1) ++ p.extractLsb' 3 1 ++ p.extractLsb' 4 1 ++ p.extractLsb' 0 3).toNat =
      p.toNat / 8 % 2 * 16 + p.toNat / 16 % 2 * 8 + p.toNat % 8 := by
    simp only [toNat_append_eq_mul_add, BitVec.extractLsb'_toNat, Nat.shiftRight_eq_div_pow, BitVec.ofNat_eq_ofNat,
      BitVec.toNat_ofNat]
    omega
  refine BitVec.eq_of_toNat_eq ?_
  rw [toDdram_toNat, weights, swapMiddle]
  split_ifs <;> omega

/-- Settles O18: each range by the arithmetic of the translator. -/
theorem translatorRanges : Obligations.TranslatorRanges := by
  intro p
  have small := p.isLt
  rw [toDdram_toNat]
  refine ⟨fun h => ?_, fun h => ?_, fun h => ?_, by omega, by omega, by omega, swapMiddle_lt small⟩
  · exact if_pos (by omega)
  · rw [swapMiddle, if_neg (by omega), if_pos h.2]
  · rw [swapMiddle, if_neg (by omega), if_neg (by omega)]

/-- Settles O19: the swap is its own inverse and keeps the offset, and only a quadrant's end breaks the sequence. -/
theorem translatorOnNaturals : Obligations.TranslatorOnNaturals := by
  refine ⟨fun p hp => if_neg (Nat.not_lt.2 hp), fun p hp => ?_, fun p a b ha hb => ?_⟩
  · obtain ⟨a, answer, value⟩ := exists_toDdramNat hp
    refine ⟨a, answer, ?_, ?_⟩ <;> rw [value]
    · have same : (BitVec.ofNat 6 p).toNat = p := Nat.mod_eq_of_lt (by omega)
      rw [toDdramNat_eq_some_iff, swapMiddle_swapMiddle, same]
      exact ⟨swapMiddle_lt hp, rfl⟩
    · exact swapMiddle_mod_eight p
  · obtain ⟨_, a_eq⟩ := toDdramNat_eq_some_iff.1 ha
    obtain ⟨next_lt, b_eq⟩ := toDdramNat_eq_some_iff.1 hb
    rw [a_eq, b_eq, swapMiddle_succ_eq_iff next_lt]

end Sys2Proof.Machine

/-! Set-address: SETADDR and SETPOS send their address in the Basic set (R116, R117). -/

namespace Sys2Proof.Machine

/-- Once an INIT has completed, SELECT(Basic) answers the state that the obligations write field by field (R100). -/
theorem selectSet_basic {s : State} (h : s.initDone = true) : selectSet .basic s = .next (afterSelectBasic s) := by
  cases recorded : s.iset with
  | basic => simp only [selectSet_same h recorded, afterSelectBasic, recorded]
  | extended =>
    rw [selectSet_other h (by simp [recorded]), sendIns_eq_afterSend]
    simp only [afterSelectBasic, recorded]
    rfl

@[simp] theorem afterSelectBasic_opc (s : State) : (afterSelectBasic s).opc = s.opc := by
  unfold afterSelectBasic; split <;> rfl

/-- A send in the Basic set, once an INIT has completed (R104). -/
theorem sendInBasic_initialised (I : State → Ins10) {s : State} (h : s.initDone = true) :
    sendInBasic I s = .next (afterSend (afterSelectBasic s) (I (afterSelectBasic s))) := by
  rw [sendInBasic, selectSet_basic h, andThen_next_eq, sendIns_eq_afterSend]

/-- A send in the Basic set before the first INIT is the model fault (R104, R175). -/
theorem sendInBasic_uninitialised (I : State → Ins10) {s : State} (h : s.initDone = false) :
    sendInBasic I s = .fault .uninitialisedISet := by
  rw [sendInBasic, selectSet_uninitialised _ h, andThen_fault_eq]

theorem exec_setaddr (a : BitVec 6) (s : State) :
    exec (.setaddr a) s = sendInBasic (fun r => setddramWord r.opc a) s := rfl

/-- SETPOS includes SETADDR (R117). -/
theorem exec_setpos (p : BitVec 5) (s : State) : exec (.setpos p) s = exec (.setaddr (toDdram p)) s := rfl

/-- Settles O20: SETADDR is a send in the Basic set, and the decoder checks its reserved bits. -/
theorem setaddrMeaning : Obligations.SetaddrMeaning := by
  refine ⟨fun a s hi => ?_, fun a s hi => sendInBasic_uninitialised _ hi, fun c hop hres => ?_⟩
  · rw [exec_setaddr, sendInBasic_initialised _ hi, afterSelectBasic_opc, setddramWord]
  · rw [← extractLsb'_cmdArg c (by decide)] at hres
    simp only [decode14, hop]
    exact if_neg hres

/-- Settles O21: SETPOS is SETADDR at the translated position, and the decoder checks SETPOS's own reserved bits. -/
theorem setposMeaning : Obligations.SetposMeaning := by
  obtain ⟨initialised, uninitialised, _⟩ := setaddrMeaning
  refine ⟨fun p s hi => ?_, exec_setpos, fun p s hi => ?_, fun c hop hres => ?_⟩
  · rw [exec_setpos, initialised (toDdram p) s hi]
  · rw [exec_setpos, uninitialised (toDdram p) s hi]
  · rw [← extractLsb'_cmdArg c (by decide)] at hres
    simp only [decode14, hop]
    exact if_neg hres

end Sys2Proof.Machine

/-! The display-control register: SETATTR writes one attribute and sends all three in the Basic set
(43_display_control.md). -/

namespace Sys2Proof

/-- The words of SETATTR's operation code: the reserved bits are checked first, then the selector (R63, R173). -/
theorem decode14_setattr {c : Cmd14} (h : cmdOp c = 2) :
    decode14 c =
      if c.extractLsb' 3 7 = 0 then
        if c.extractLsb' 1 2 = badSelectorCode then .error .badSelector
        else .ok (.setattr (c.extractLsb' 1 2) ((cmdArg c).getLsbD 0))
      else .error .reservedBits := by
  rw [← extractLsb'_cmdArg c (start := 3) (by decide), ← extractLsb'_cmdArg c (start := 1) (by decide)]
  simp only [decode14, h]
  rfl

end Sys2Proof

namespace Sys2Proof.Machine

/-- The chain of writes and the record update of the obligations are the same state (R120). -/
theorem writeAttr_eq_withAttr (w : BitVec 2) (v : Bool) (s : State) : writeAttr w v s = withAttr s w v := by
  rcases writeAttr_cases w v s with ⟨rfl, e⟩ | ⟨rfl, e⟩ | ⟨rfl, e⟩ | ⟨rfl, e⟩ <;> exact e

@[simp] theorem afterSelectBasic_attrD (s : State) : (afterSelectBasic s).attrD = s.attrD := by
  unfold afterSelectBasic; split <;> rfl

@[simp] theorem afterSelectBasic_attrU (s : State) : (afterSelectBasic s).attrU = s.attrU := by
  unfold afterSelectBasic; split <;> rfl

@[simp] theorem afterSelectBasic_attrB (s : State) : (afterSelectBasic s).attrB = s.attrB := by
  unfold afterSelectBasic; split <;> rfl

/-- The display control word is made of the same attributes before and after SELECT(Basic) (R22, R103). -/
theorem resendAttrs_initialised {s : State} (h : s.initDone = true) :
    resendAttrs s = .next (afterSend (afterSelectBasic s) (dispWord s.opc s.attrD s.attrU s.attrB)) := by
  rw [resendAttrs, sendInBasic_initialised _ h, afterSelectBasic_opc, afterSelectBasic_attrD, afterSelectBasic_attrU,
    afterSelectBasic_attrB]

/-- SETATTR with a selector that names an attribute (R120). -/
theorem exec_setattr {w : BitVec 2} (hw : w ≠ 3) (v : Bool) (s : State) :
    exec (.setattr w v) s = resendAttrs (withAttr s w v) := by
  rw [← writeAttr_eq_withAttr]
  exact if_neg hw

/-- SETATTR with the spare selector (R123). -/
theorem exec_setattr_badSelector (v : Bool) (s : State) :
    exec (.setattr badSelectorCode v) s = .next { s with err := true } := rfl

/-- Settles O15: SETATTR writes the attribute and then sends all three in the Basic set; illegal words are read
off the decoder. -/
theorem setattrMeaning : Obligations.SetattrMeaning := by
  refine ⟨fun w v s hw hi => ?_, fun w v s hw hi => ?_, exec_setattr_badSelector, fun c hop hres => ?_,
    fun c hop hres hsel => ?_⟩
  · have done : (withAttr s w v).initDone = true := hi
    rw [exec_setattr hw, resendAttrs_initialised done]
    rfl
  · have notDone : (withAttr s w v).initDone = false := hi
    rw [exec_setattr hw, resendAttrs, sendInBasic_uninitialised _ notDone]
  · rw [decode14_setattr hop, if_neg hres]
  · rw [decode14_setattr hop, if_pos hres, if_pos hsel]

end Sys2Proof.Machine

/-! Data writes, clear display and initialization: WRDATA, CLEAR and INIT (44_init_and_data.md, R130 to R135). -/

namespace Sys2Proof.Machine

/-- With `W_data` a data write is the bits `10` over the byte (R67, R72). -/
theorem writeWord_eq_append {o : Opc} (h : o.wData = true) (b : Byte) : writeWord o b = (0b10 : BitVec 2) ++ b := by
  have base : o.wrdataBase = (0b10 : BitVec 2) ++ (0 : Byte) := beq_iff_eq.1 h
  have byte : b.setWidth 10 = (0 : BitVec 2) ++ b := BitVec.setWidth_eq_append (by decide)
  rw [writeWord, base, byte, BitVec.or_append]
  simp

theorem exec_wrdata (b : Byte) (s : State) : exec (.wrdata b) s = .next (sendIns (writeWord s.opc b) s) := rfl

/-- Settles O22: WRDATA is a send, with `W_data` of the value that SEND is given, and the decoder checks its reserved
bits. -/
theorem wrdataMeaning : Obligations.WrdataMeaning := by
  refine ⟨fun b s => ?_, fun b s hw => ?_, fun c hop hres => ?_⟩
  · rw [exec_wrdata, sendIns_eq_afterSend, writeWord]
  · rw [exec_wrdata, writeWord_eq_append hw, exec_send]
  · rw [← extractLsb'_cmdArg c (by decide)] at hres
    simp only [decode14, hop]
    exact if_neg hres

theorem exec_clear (s : State) : exec .clear s = andThen (selectSet .basic s) fun r => .next (clearDisplay r) := rfl

/-- Clear display is a send with the long settle after the standard one (R131). -/
theorem clearDisplay_eq (s : State) :
    clearDisplay s = { afterSend s s.opc.clear with
      events := s.events ++ frameFields s.opc.clear ++ [.dly .long] } := by
  rw [clearDisplay, sendIns_eq_afterSend, longSettle_eq, afterSend]

/-- Settles O23: CLEAR is SELECT(Basic) and then clear display, and the decoder checks its operand bits. -/
theorem clearMeaning : Obligations.ClearMeaning := by
  refine ⟨fun s hi => ⟨_, ?_, rfl⟩, fun s hi => ?_, fun c hop hres => ?_⟩
  · rw [exec_clear, selectSet_basic hi, andThen_next_eq, clearDisplay_eq, afterSelectBasic_opc]
  · rw [exec_clear, selectSet_uninitialised _ hi, andThen_fault_eq]
  · simp only [decode14, hop]
    exact if_neg hres

theorem sendIns_events_fields (I : Ins10) (s : State) : (sendIns I s).events = s.events ++ frameFields I := by
  rw [sendIns_events, insEvents_eq_frameFields]

/-- What INIT appends under an OPC: function set Basic, display control with all three attributes on, clear display with
its long settle, entry mode (R130). -/
def initEvents (o : Opc) : List Event :=
  frameFields o.fsBasic ++ frameFields (dispWord o true true true) ++ frameFields o.clear ++ [.dly .long] ++
    frameFields o.entryRight

theorem initForceBasic_events (s : State) : (initForceBasic s).events = s.events ++ frameFields s.opc.fsBasic :=
  sendIns_events_fields _ (s.setIset .basic)

theorem initDefaultAttrs_events (s : State) :
    (initDefaultAttrs s).events = s.events ++ frameFields (dispWord s.opc true true true) :=
  sendIns_events_fields _ (((s.setAttrD true).setAttrU true).setAttrB true)

theorem clearDisplay_events (s : State) :
    (clearDisplay s).events = s.events ++ frameFields s.opc.clear ++ [.dly .long] := by
  rw [clearDisplay_eq]

theorem initEntryMode_events (s : State) : (initEntryMode s).events = s.events ++ frameFields s.opc.entryRight :=
  sendIns_events_fields _ s

theorem initResult_events (s : State) : (initResult s).events = s.events ++ initEvents s.opc := by
  rw [initResult, State.setInitDone_events, initEntryMode_events, clearDisplay_events, initDefaultAttrs_events,
    initForceBasic_events]
  simp [initEvents]

theorem initEvents_length (o : Opc) : (initEvents o).length = 17 := rfl

/-- Settles O24: the events step by step; the host's list and OPC are left by every step of INIT. -/
theorem initMeaning : Obligations.InitMeaning := by
  intro s
  obtain ⟨_, cmds, opc, _⟩ := OnlyAppends.initSteps s
  refine ⟨initResult s, initEvents s.opc, exec_init s, initResult_events s, rfl, initEvents_length s.opc,
    initResult_iset s, initResult_attrs s, initResult_err s, ?_, ?_, ?_⟩
  · rw [initResult, State.setInitDone_initDone]
  · rw [initResult, State.setInitDone_cmds, cmds]
  · rw [initResult, State.setInitDone_opc, opc]

/-- Settles O25: INIT leaves on both sides what it sends. -/
theorem initEstablishesMirrors : Obligations.InitEstablishesMirrors := by
  intro s hw hd hp
  have set := initResult_cset ⟨hw, hd⟩
  have settings := initResult_cattr ⟨hw, hd⟩ hp
  exact ⟨initResult s, exec_init s, set, settings, fun _ => (initResult_iset s).trans set.symm,
    fun _ => (initResult_attrs s).trans settings.symm⟩

end Sys2Proof.Machine

/-! The host emitters (45_host_emitters.md): when a run has a value and what it is, which words it is made of, and how
often a full-width run repositions the cursor. -/

namespace Sys2Proof.Machine

/-- The half-width emitter has a value exactly on a run inside the 64 positions and inside its text (R151, R155,
U17). -/
theorem writeHalfWidth_eq_some_iff {origin : HwCounterOrigin} {blank : Byte} {text : List Byte}
    {length row column : Nat} {ws : List Word} :
    writeHalfWidth origin blank text length row column = some ws ↔
      ((row < 4 ∧ column < 16) ∧ length ≤ text.length ∧ row * 16 + column + length ≤ 64) ∧
        positionHalf (row * 16 + column) ::
          ((if (row * 16 + column) % 2 = 1 then [cmdWord (.wrdata blank)] else []) ++
            halfWidthLoop origin blank 0 (row * 16 + column) (text.take length)) = ws := by
  rw [writeHalfWidth, halfWidthStart]
  by_cases inside : row < 4 ∧ column < 16
  · rw [if_pos inside]
    simp only [Option.ite_none_right_eq_some, Option.some.injEq, inside, true_and, and_self]
  · rw [if_neg inside]
    simp only [reduceCtorEq, inside, false_and]

/-- The full-width emitter has a value exactly on a run inside the 32 positions and inside its glyphs (R151, R157,
U17). -/
theorem writeFullWidth_eq_some_iff {glyphs : List (BitVec 16)} {length row column : Nat} {ws : List Word} :
    writeFullWidth glyphs length row column = some ws ↔
      ((row < 4 ∧ column < 8) ∧ length ≤ glyphs.length ∧ row * 8 + column + length ≤ 32) ∧
        positionFull (row * 8 + column) ++ fullWidthLoop 0 (row * 8 + column) (glyphs.take length) = ws := by
  rw [writeFullWidth, fullWidthStart]
  by_cases inside : row < 4 ∧ column < 8
  · rw [if_pos inside]
    simp only [Option.ite_none_right_eq_some, Option.some.injEq, inside, true_and, and_self]
  · rw [if_neg inside]
    simp only [reduceCtorEq, inside, false_and]

/-- The word of a well-formed command (R61, R63, R64). -/
def IsCommandWord (w : Word) : Prop := ∃ i : Instr, i.isCommand = true ∧ i.wf = true ∧ w = cmdWord i

theorem isCommandWord_setpos (p : BitVec 5) : IsCommandWord (cmdWord (.setpos p)) := ⟨_, rfl, rfl, rfl⟩

theorem isCommandWord_select (u : InstrSet) : IsCommandWord (cmdWord (.select u)) := ⟨_, rfl, rfl, rfl⟩

theorem isCommandWord_wrdata (b : Byte) : IsCommandWord (cmdWord (.wrdata b)) := ⟨_, rfl, rfl, rfl⟩

theorem isCommandWord_positionHalf (h : Nat) : IsCommandWord (positionHalf h) := isCommandWord_setpos _

theorem isCommandWord_of_mem_positionFull (p : Nat) : ∀ w ∈ positionFull p, IsCommandWord w :=
  List.forall_mem_cons.2 ⟨isCommandWord_setpos _, List.forall_mem_singleton.2 (isCommandWord_select _)⟩

/-- The emitters' optional parts, a reposition or a blank: what holds of the words of the part holds of those sent. -/
theorem forall_mem_optional {P : Word → Prop} {c : Prop} [Decidable c] {ws : List Word} (h : ∀ w ∈ ws, P w) :
    ∀ w ∈ (if c then ws else []), P w :=
  fun w hw => h w (List.mem_ite_nil_right.1 hw).2

theorem isCommandWord_of_mem_halfWidthLoop (origin : HwCounterOrigin) (blank : Byte) (i h : Nat) (text : List Byte) :
    ∀ w ∈ halfWidthLoop origin blank i h text, IsCommandWord w := by
  induction text generalizing i h with
  | nil => exact forall_mem_optional (List.forall_mem_singleton.2 (isCommandWord_wrdata blank))
  | cons c rest ih =>
    exact List.forall_mem_append.2
      ⟨forall_mem_optional (List.forall_mem_singleton.2 (isCommandWord_positionHalf h)),
        List.forall_mem_cons.2 ⟨isCommandWord_wrdata c, ih (i + 1) (h + 1)⟩⟩

theorem isCommandWord_of_mem_fullWidthLoop (i p : Nat) (glyphs : List (BitVec 16)) :
    ∀ w ∈ fullWidthLoop i p glyphs, IsCommandWord w := by
  induction glyphs generalizing i p with
  | nil => exact List.forall_mem_nil _
  | cons g rest ih =>
    exact List.forall_mem_append.2
      ⟨forall_mem_optional (isCommandWord_of_mem_positionFull p),
        List.forall_mem_cons.2 ⟨isCommandWord_wrdata _,
          List.forall_mem_cons.2 ⟨isCommandWord_wrdata _, ih (i + 1) (p + 1)⟩⟩⟩

/-- Settles O44: the first position, the padding and the write loop of either emitter are made of SETPOS, SELECT and
WRDATA, which have no ill-formed operand. -/
theorem emitterWordsAreLegal : Obligations.EmitterWordsAreLegal := by
  refine ⟨fun origin blank text length row column ws run => ?_, fun glyphs length row column ws run => ?_⟩
  · obtain ⟨_, rfl⟩ := writeHalfWidth_eq_some_iff.1 run
    exact List.forall_mem_cons.2 ⟨isCommandWord_positionHalf _, List.forall_mem_append.2
      ⟨forall_mem_optional (List.forall_mem_singleton.2 (isCommandWord_wrdata blank)),
        isCommandWord_of_mem_halfWidthLoop origin blank _ _ _⟩⟩
  · obtain ⟨_, rfl⟩ := writeFullWidth_eq_some_iff.1 run
    exact List.forall_mem_append.2 ⟨isCommandWord_of_mem_positionFull _, isCommandWord_of_mem_fullWidthLoop _ _ _⟩

@[simp] theorem setposCount_nil : setposCount [] = 0 := rfl

@[simp] theorem setposCount_append (ws vs : List Word) : setposCount (ws ++ vs) = setposCount ws + setposCount vs :=
  List.countP_append

/-- A command counts when its operation code is SETPOS's (R63). -/
theorem setposCount_cons_of_cmdFields {i : Instr} {op : BitVec 4} {arg : BitVec 10} (h : i.cmdFields = some (op, arg))
    (ws : List Word) : setposCount (cmdWord i :: ws) = setposCount ws + if op = 3 then 1 else 0 := by
  rw [cmdWord, encode_of_cmdFields _ h, setposCount, List.countP_cons]
  simp only [cmdOp_append, beq_iff_eq]
  rfl

@[simp] theorem setposCount_cons_setpos (p : BitVec 5) (ws : List Word) :
    setposCount (cmdWord (.setpos p) :: ws) = setposCount ws + 1 :=
  setposCount_cons_of_cmdFields (i := .setpos p) rfl ws

@[simp] theorem setposCount_cons_select (u : InstrSet) (ws : List Word) :
    setposCount (cmdWord (.select u) :: ws) = setposCount ws :=
  setposCount_cons_of_cmdFields (i := .select u) rfl ws

@[simp] theorem setposCount_cons_wrdata (b : Byte) (ws : List Word) :
    setposCount (cmdWord (.wrdata b) :: ws) = setposCount ws :=
  setposCount_cons_of_cmdFields (i := .wrdata b) rfl ws

@[simp] theorem setposCount_positionFull (p : Nat) : setposCount (positionFull p) = 1 := by
  simp [positionFull]

/-- One turn of the loop of R157: the two data writes do not count. -/
theorem setposCount_fullWidthLoop_cons (i p : Nat) (g : BitVec 16) (rest : List (BitVec 16)) :
    setposCount (fullWidthLoop i p (g :: rest)) =
      (if 0 < i ∧ p % 8 = 0 then 1 else 0) + setposCount (fullWidthLoop (i + 1) (p + 1) rest) := by
  rw [fullWidthLoop, setposCount_append, setposCount_cons_wrdata, setposCount_cons_wrdata, apply_ite setposCount,
    setposCount_positionFull, setposCount_nil]

/-- After its first glyph the loop repositions at every multiple of 8 from `p` up to its last position (R157): `q`
positions from 0 hold `(q + 7) / 8` of them. -/
theorem setposCount_fullWidthLoop_succ (i p : Nat) (glyphs : List (BitVec 16)) :
    setposCount (fullWidthLoop (i + 1) p glyphs) = (p + glyphs.length + 7) / 8 - (p + 7) / 8 := by
  induction glyphs generalizing i p with
  | nil => simp [fullWidthLoop]
  | cons g rest ih =>
    rw [setposCount_fullWidthLoop_cons, ih, List.length_cons]
    split_ifs <;> omega

/-- The first glyph of a run brings no reposition of its own, whatever its position (R157). -/
theorem setposCount_fullWidthLoop_zero (p : Nat) {glyphs : List (BitVec 16)} (nonempty : 0 < glyphs.length) :
    setposCount (fullWidthLoop 0 p glyphs) = (p + glyphs.length - 1) / 8 - p / 8 := by
  cases glyphs with
  | nil => exact absurd nonempty (Nat.lt_irrefl 0)
  | cons g rest =>
    rw [setposCount_fullWidthLoop_cons, setposCount_fullWidthLoop_succ, if_neg (fun first => Nat.lt_irrefl 0 first.1),
      List.length_cons]
    omega

/-- Settles O45: one SETPOS before the loop, and the loop's own repositions. -/
theorem fullWidthRepositions : Obligations.FullWidthRepositions := by
  intro glyphs length row column ws nonempty run
  obtain ⟨⟨_, enough, _⟩, rfl⟩ := writeFullWidth_eq_some_iff.1 run
  have taken : (glyphs.take length).length = length := List.length_take_of_le enough
  rw [setposCount_append, setposCount_positionFull, setposCount_fullWidthLoop_zero _ (taken.symm ▸ nonempty), taken]

end Sys2Proof.Machine

/-! Exceptions (60_exceptions.md): the sub-causes of an illegal word and their one effect (R171, R173), and the read of
`iset` before the first INIT, the only stop (R175). -/

namespace Sys2Proof

/-- A check of the decoder that rejects has failed, and the cause is its own. -/
theorem check_failed {p : Prop} [Decidable p] {i : Instr} {e cause : IllegalCause}
    (h : (if p then Except.ok i else Except.error e) = .error cause) : cause = e := by
  split at h <;> cases h
  rfl

/-- Where in the decoder each sub-cause comes from: no operation code, an operand check, the selector check (R173). -/
theorem cause_of_decode14 {c : Cmd14} {cause : IllegalCause} (h : decode14 c = .error cause) :
    (cause = .reservedOp ∧ 8 ≤ (cmdOp c).toNat) ∨ (cause = .reservedBits ∧ (cmdOp c).toNat < 8) ∨
      (cause = .badSelector ∧ c &&& 0x3FFE = 0x0806) := by
  simp only [decode14] at h
  split at h
  case h_1 => cases h
  case h_2 hop | h_4 hop | h_5 hop | h_6 hop | h_7 hop | h_8 hop => exact .inr (.inl ⟨check_failed h, by omega⟩)
  case h_3 hop =>
    split at h
    next hres =>
      split at h <;> cases h
      next hsel => exact .inr (.inr ⟨rfl, badSelector_word (BitVec.eq_of_toNat_eq hop) hres hsel⟩)
    next => cases h; exact .inr (.inl ⟨rfl, by omega⟩)
  case h_9 => cases h; exact .inl ⟨rfl, by grind⟩

/-- A reserved operation code comes first in the order of R173. -/
theorem decode14_eq_reservedOp_iff {c : Cmd14} : decode14 c = .error .reservedOp ↔ 8 ≤ (cmdOp c).toNat := by
  refine ⟨fun h => ?_, fun h => ?_⟩
  · rcases cause_of_decode14 h with ⟨_, hop⟩ | ⟨e, _⟩ | ⟨e, _⟩
    · exact hop
    · cases e
    · cases e
  · simp only [decode14]
    split
    case h_9 => rfl
    all_goals omega

theorem decode14_eq_badSelector_iff {c : Cmd14} : decode14 c = .error .badSelector ↔ c &&& 0x3FFE = 0x0806 := by
  refine ⟨fun h => ?_, decode14_badSelector⟩
  rcases cause_of_decode14 h with ⟨e, _⟩ | ⟨e, _⟩ | ⟨_, hsel⟩
  · cases e
  · cases e
  · exact hsel

/-- SETATTR with selector 3 is two words, one per value of the attribute (R64). -/
theorem badSelector_word_iff {c : Cmd14} : c &&& 0x3FFE = 0x0806 ↔ c = 0x0806 ∨ c = 0x0807 := by
  refine ⟨fun h => ?_, fun h => by rcases h with rfl | rfl <;> rfl⟩
  have upper : c.extractLsb' 1 13 = (0x0806 : Cmd14).extractLsb' 1 13 := extractLsb'_of_selects h rfl
  have word : c.extractLsb' 1 13 ++ c.extractLsb' 0 1 = c := BitVec.extractLsb'_append_extractLsb'
  rw [← word, upper]
  generalize c.extractLsb' 0 1 = v
  revert v
  decide

/-- The two ways for a word to be illegal (R64). -/
theorem legalWord_eq_false_iff {c : Cmd14} :
    legalWord c = false ↔ (cmdRows.all fun r => !r.selects c) = true ∨ c &&& 0x3FFE = 0x0806 := by
  rw [legalWord, ← List.not_any_eq_all_not, Bool.and_eq_false_iff, Bool.not_eq_true', Bool.not_eq_false', beq_iff_eq]

/-- A word with selector 3 selects SETATTR's row, so it is not among the words that select none. -/
theorem selects_of_badSelector {c : Cmd14} (h : c &&& 0x3FFE = 0x0806) : cmdRows.any (·.selects c) = true := by
  rcases badSelector_word_iff.1 h with rfl | rfl <;> decide

/-- The decoder rejects exactly the illegal words (R64, R171). -/
theorem legalWord_eq_false_iff_rejected {c : Cmd14} : legalWord c = false ↔ ∃ cause, decode14 c = .error cause := by
  rw [← Bool.not_eq_true, ← wordDecodesExactlyWhenLegal c]
  cases decode14 c <;> simp

/-- With a legal operation code and no row selected the sub-cause is reserved bits: the other two are ruled out by the
operation code and by the row that selector 3 selects (R173). -/
theorem decode14_eq_reservedBits_iff {c : Cmd14} : decode14 c = .error .reservedBits ↔
    (cmdOp c).toNat < 8 ∧ (cmdRows.all fun r => !r.selects c) = true := by
  refine ⟨fun h => ⟨?_, ?_⟩, fun ⟨hop, hrows⟩ => ?_⟩
  · rcases cause_of_decode14 h with ⟨e, _⟩ | ⟨_, hop⟩ | ⟨e, _⟩
    · cases e
    · exact hop
    · cases e
  · rcases legalWord_eq_false_iff.1 (legalWord_eq_false_iff_rejected.2 ⟨_, h⟩) with hrows | hsel
    · exact hrows
    · rw [decode14_badSelector hsel] at h
      cases h
  · obtain ⟨cause, hd⟩ := legalWord_eq_false_iff_rejected.1 (legalWord_eq_false_iff.2 (.inl hrows))
    rcases cause_of_decode14 hd with ⟨_, hop'⟩ | ⟨rfl, _⟩ | ⟨_, hsel⟩
    · omega
    · exact hd
    · rw [← List.not_any_eq_all_not, selects_of_badSelector hsel] at hrows
      cases hrows

end Sys2Proof

namespace Sys2Proof.Machine

/-- Settles O28: the sub-causes are read off the decoder, which rejects an illegal word, and a rejected word is consumed
and raises IllegalCommand. -/
theorem illegalCommandSetsOneFlag : Obligations.IllegalCommandSetsOneFlag := by
  refine ⟨fun _ => decode14_eq_reservedOp_iff, fun _ => decode14_eq_reservedBits_iff,
    fun _ => decode14_eq_badSelector_iff.trans badSelector_word_iff, fun s c rest hc hl => ?_⟩
  obtain ⟨cause, hd⟩ := legalWord_eq_false_iff_rejected.1 hl
  rw [step_illegal hc (w := .cmd14 c) hd, raiseIllegalCommand_eq, State.setCmds]

/-- An instruction that reads `iset` is a SELECT, run on a state with the same record of an INIT, and then an operation
that always answers (R104, R175). -/
theorem exec_of_readsIset {i : Instr} (h : readsIset i = true) (s : State) :
    ∃ (u : InstrSet) (r : State) (f : State → State), r.initDone = s.initDone ∧
      exec i s = andThen (selectSet u r) fun t => .next (f t) := by
  cases i with
  | select u =>
    refine ⟨u, s, id, rfl, ?_⟩
    rw [exec_select]
    cases selectSet u s <;> rfl
  | setattr w v =>
    have hw : w ≠ 3 := by simpa [readsIset] using h
    exact ⟨.basic, withAttr s w v, _, rfl, exec_setattr hw v s⟩
  | setpos p => exact ⟨.basic, s, _, rfl, exec_setpos p s⟩
  | setaddr a => exact ⟨.basic, s, _, rfl, exec_setaddr a s⟩
  | clear => exact ⟨.basic, s, _, rfl, exec_clear s⟩
  | send | wrdata | init | funcsetB | funcsetE | dispctrl | clrdisp | entryR | setddram | write => cases h

/-- An instruction that does not read `iset` answers a next state in every state (R175). -/
theorem exec_next_of_not_readsIset {i : Instr} (h : readsIset i = false) (s : State) : ∃ t, exec i s = .next t := by
  cases i with
  | select | setpos | setaddr | clear => cases h
  | setattr w v =>
    obtain rfl : w = badSelectorCode := by simpa [readsIset] using h
    exact ⟨_, exec_setattr_badSelector v s⟩
  | send I => exact ⟨_, exec_send I s⟩
  | wrdata b => exact ⟨_, exec_wrdata b s⟩
  | init => exact ⟨_, exec_init s⟩
  | funcsetB | funcsetE | dispctrl | clrdisp | entryR | setddram | write => exact ⟨_, exec_of_encode_st7920 rfl⟩

/-- Settles O32: an instruction that reads `iset` stops where its SELECT stops, which is before the first INIT. -/
theorem onlyStopIsUninitialisedIset : Obligations.OnlyStopIsUninitialisedIset := by
  intro i s
  cases reads : readsIset i with
  | false => exact ⟨fun h => (Bool.false_ne_true h).elim, fun _ => exec_next_of_not_readsIset reads s⟩
  | true =>
    obtain ⟨u, r, f, same, e⟩ := exec_of_readsIset reads s
    refine ⟨fun _ notDone => ?_, fun h => ?_⟩
    · rw [e, selectSet_uninitialised u (same.trans notDone), andThen_fault_eq]
    · have done : s.initDone = true := h.resolve_left Bool.noConfusion
      obtain ⟨t, ht⟩ := selectSet_next u (same.trans done)
      exact ⟨f t, by rw [e, ht, andThen_next_eq]⟩

end Sys2Proof.Machine

/-! Runs and costs (R193, R204, R205): after an INIT a run of legal words ends with every command consumed, and what an
instruction appends is counted part by part. -/

namespace Sys2Proof.Machine

/-- A legal word decodes to a well-formed instruction; an `st7920_10` word always decodes (R64, R93). -/
theorem decodeWord_of_legal {w : Word} (h : ∀ c, w = .cmd14 c → legalWord c = true) (o : Opc) :
    ∃ i, decodeWord o w = .ok i ∧ i.wf = true := by
  cases hd : decodeWord o w with
  | ok i => exact ⟨i, rfl, wf_of_decodeWord hd⟩
  | error cause =>
    obtain ⟨c, rfl, illegal⟩ := illegal_of_decodeWord hd
    simp [h c rfl] at illegal

/-- Once an INIT has completed, a step on a legal word consumes it, does not fault and leaves `err` (R176). -/
theorem step_of_legal {s : State} {w : Word} {rest : List Word} (hi : s.initDone = true) (hc : s.cmds = w :: rest)
    (hl : ∀ c, w = .cmd14 c → legalWord c = true) :
    ∃ r, step s = .next r ∧ r.cmds = rest ∧ r.initDone = true ∧ r.err = s.err := by
  obtain ⟨i, hd, hwf⟩ := decodeWord_of_legal hl s.opc
  obtain ⟨r, hr⟩ := (onlyStopIsUninitialisedIset i (s.setCmds rest)).2 (.inr hi)
  have hstep : step s = .next r := (step_decoded hc hd).trans hr
  obtain ⟨_, cmds, _, done, _⟩ := stepOnlyAppends s r hstep
  exact ⟨r, hstep, by rw [cmds, hc, List.tail_cons], done hi, exec_err (s := s.setCmds rest) hwf hr⟩

/-- Once an INIT has completed, a run over the host's legal words consumes them all (R193). -/
theorem run_of_legal {s : State} {ws : List Word} (hi : s.initDone = true) (hc : s.cmds = ws)
    (hl : ∀ c, Word.cmd14 c ∈ ws → legalWord c = true) :
    ∃ t, Host.Core.run core ws.length s = .next t ∧ t.cmds = [] ∧ t.initDone = true ∧ t.err = s.err := by
  induction ws generalizing s with
  | nil => exact ⟨s, rfl, hc, hi, rfl⟩
  | cons w rest ih =>
    obtain ⟨r, first, cmds, done, err⟩ := step_of_legal hi hc fun c e => hl c (e ▸ List.mem_cons_self)
    obtain ⟨t, others, ended, done', err'⟩ := ih done cmds fun c hm => hl c (List.mem_cons_of_mem w hm)
    exact ⟨t, (run_succ_of_step first _).trans others, ended, done', err'.trans err⟩

/-- Settles O42, by induction on the host's list: each step consumes one legal word and keeps the record of an INIT,
so that the next one does not stop. -/
theorem legalRunsEnd : Obligations.LegalRunsEnd := by
  intro s hi hl
  obtain ⟨t, run, ended, done, err⟩ := run_of_legal hi rfl hl
  exact ⟨t, run, List.isEmpty_iff.2 ended, err, done⟩

/-- The events are those of `n` instructions, three byte transfers and a settle request each, and of `l` long delay
requests (R204). -/
structure Costs (n l : Nat) (es : List Event) : Prop where
  std : stdDelays es = n
  transfers : transfers es = 3 * n
  long : longDelays es = l

namespace Costs

theorem nil : Costs 0 0 [] := ⟨rfl, rfl, rfl⟩

theorem frameFields (I : Ins10) : Costs 1 0 (frameFields I) := ⟨rfl, rfl, rfl⟩

theorem longDelay : Costs 0 1 [.dly .long] := ⟨rfl, rfl, rfl⟩

theorem append {m n k l : Nat} {es fs : List Event} (h : Costs m k es) (g : Costs n l fs) :
    Costs (m + n) (k + l) (es ++ fs) where
  std := by rw [stdDelays, List.count_append]; exact congrArg₂ _ h.std g.std
  transfers := by
    rw [Machine.transfers, List.countP_append, Nat.mul_add]; exact congrArg₂ _ h.transfers g.transfers
  long := by rw [longDelays, List.count_append]; exact congrArg₂ _ h.long g.long

/-- INIT is four instructions, with a long delay after the third (R130). -/
theorem initEvents (o : Opc) : Costs 4 1 (initEvents o) :=
  ((((frameFields o.fsBasic).append (frameFields _)).append (frameFields o.clear)).append longDelay).append
    (frameFields o.entryRight)

/-- The least time of the events is the sum that R204 describes. -/
theorem minDuration_eq {n l : Nat} {es : List Event} (h : Costs n l es) (tByte : Nat) :
    minDuration tByte es = n * (3 * tByte + Config.tStd) + l * Config.tLong := by
  rw [minDuration, h.std, h.transfers, h.long]
  ring

end Costs

/-- What `t` has appended to the events of `s` costs `n` instructions and `l` long delays. -/
def Spends (n l : Nat) (s t : State) : Prop := ∃ es, t.events = s.events ++ es ∧ Costs n l es

namespace Spends

theorem none {s t : State} (h : t.events = s.events) : Spends 0 0 s t := ⟨[], by rw [h, List.append_nil], .nil⟩

theorem trans {m n k l : Nat} {s t r : State} (h : Spends m k s t) (g : Spends n l t r) :
    Spends (m + n) (k + l) s r := by
  obtain ⟨es, hes, ces⟩ := h
  obtain ⟨fs, hfs, cfs⟩ := g
  exact ⟨es ++ fs, by rw [hfs, hes, List.append_assoc], ces.append cfs⟩

theorem sendIns (I : Ins10) (s : State) : Spends 1 0 s (sendIns I s) := ⟨_, sendIns_events_fields I s, .frameFields I⟩

theorem clearDisplay (s : State) : Spends 1 1 s (clearDisplay s) :=
  (sendIns s.opc.clear s).trans ⟨_, rfl, .longDelay⟩

/-- SELECT sends one function set when its target differs from the record, else nothing (R100). -/
theorem selectSet {u : InstrSet} {s r : State} (h : selectSet u s = .next r) :
    Spends (if s.iset = u then 0 else 1) 0 s r := by
  rcases selectSet_cases u s with ⟨_, e⟩ | ⟨_, recorded, e⟩ | ⟨_, other, e⟩ <;> rw [e] at h <;> cases h
  · rw [if_pos recorded]; exact none rfl
  · rw [if_neg other]; exact sendIns (funcsetWord s.opc u) s

/-- One more instruction after SELECT(Basic) makes one or two (R104, R204). -/
theorem afterSelectBasic {l : Nat} {s r t : State} (h : Machine.selectSet .basic s = .next r) (g : Spends 1 l r t) :
    Spends (oneOrTwo s.iset) l s t := by
  have sum : oneOrTwo s.iset = (if s.iset = .basic then 0 else 1) + 1 := by cases s.iset <;> rfl
  rw [sum, ← Nat.zero_add l]
  exact (selectSet h).trans g

theorem initResult (s : State) : Spends 4 1 s (initResult s) := ⟨_, initResult_events s, .initEvents s.opc⟩

end Spends

@[simp] theorem writeAttr_events (w : BitVec 2) (v : Bool) (s : State) : (writeAttr w v s).events = s.events := by
  rcases writeAttr_cases w v s with ⟨_, e⟩ | ⟨_, e⟩ | ⟨_, e⟩ | ⟨_, e⟩ <;> rw [e] <;> rfl

/-- SEND, WRDATA and an emitted instruction by itself cost one instruction (R204). -/
theorem Spends.rawSend {i : Instr} {I : Ins10} {s : State} (h : i = .send I ∨
    (∃ b, i = .wrdata b ∧ I = writeWord s.opc b) ∨ (i.isCommand = false ∧ encode s.opc i = .st7920 I)) :
    Spends (instructionsEmitted s i) (longsRequested i) s (Machine.sendIns I s) := by
  obtain ⟨one, noLong⟩ : instructionsEmitted s i = 1 ∧ longsRequested i = 0 := by
    rcases h with rfl | ⟨b, rfl, _⟩ | ⟨emitted, _⟩
    · exact ⟨rfl, rfl⟩
    · exact ⟨rfl, rfl⟩
    · cases i <;> cases emitted <;> exact ⟨rfl, rfl⟩
  rw [one, noLong]
  exact .sendIns I s

/-- Every instruction that answers a next state spends what R204's table says. -/
theorem exec_spends {i : Instr} {s t : State} (h : exec i s = .next t) :
    Spends (instructionsEmitted s i) (longsRequested i) s t := by
  rcases exec_next_cases h with ⟨u, rfl, _⟩ | ⟨v, rfl, rfl⟩ | ⟨I, rfl, sent⟩ | ⟨u, rfl, _⟩ |
    ⟨w, v, r, rfl, hw, hs, rfl⟩ | ⟨a, r, hi, hs, rfl⟩ | ⟨r, rfl, hs, rfl⟩ | ⟨rfl, rfl⟩
  · exact .selectSet h
  · exact .none rfl
  · exact .rawSend sent
  · exact .selectSet h
  · have cost : instructionsEmitted s (.setattr w v) = oneOrTwo (writeAttr w v s).iset := by
      rw [writeAttr_iset]; exact if_neg hw
    rw [cost, ← Nat.zero_add (oneOrTwo _)]
    exact (Spends.none (writeAttr_events w v s)).trans (.afterSelectBasic hs (.sendIns _ r))
  · have spent := Spends.afterSelectBasic hs (.sendIns (setddramWord r.opc a) r)
    rcases hi with rfl | ⟨p, rfl, _⟩ <;> exact spent
  · exact .afterSelectBasic hs (.clearDisplay r)
  · exact .initResult s

/-- Settles O41: the cost of the parts an instruction is made of, added up. -/
theorem commandCost : Obligations.CommandCost := by
  intro i s t h
  obtain ⟨es, events, cost⟩ := exec_spends h
  exact ⟨es, events, cost.std, cost.transfers, cost.long, cost.minDuration_eq⟩

end Sys2Proof.Machine
